-- ==== Sys2Proof/Word.lean ====
section
/-! DEFINITION. The words and the identifier ranges of the JT416 (00_scope.md 0.4, 10_sector_ports.md 10.4). -/

namespace Sys2Proof

/-- A byte of a frame (R186). -/
abbrev Byte := BitVec 8

/-- A two-byte field of a frame (R186). -/
abbrev Half := BitVec 16

/-- A port, 0 to 3 (00_scope.md 0.4, Identifiers). -/
abbrev Port := Fin 4

/-- A class, 0 to 15 (00_scope.md 0.4, Identifiers). -/
abbrev ClassId := Fin 16

/-- A profile, 0 to 3 (00_scope.md 0.4, Identifiers). -/
abbrev ProfileId := Fin 4

/-- A surge window, 0 to 7 (00_scope.md 0.4, Identifiers). -/
abbrev WindowId := Fin 8

/-- A level, 0 to 7; level 0 is the most urgent (00_scope.md 0.4, Priority). -/
abbrev Level := Fin 8

/-- The id of a call record. The part has the ids 0 to 1023 (section 2.1). -/
abbrev RecId := Nat

/-- A set of events: bit n stands for event n, 0 to 8 (R175). -/
abbrev EventSet := BitVec 9

/-- A set of classes: bit n stands for class n (R186). -/
abbrev ClassSet := BitVec 16

end Sys2Proof
end

