-- ==== Sys2Proof/Config.lean ====
section
/-! DEFINITION. The sizes and limits that the spec fixes for the part. None of them is a free value: the
spec leaves no value of the JT416 to an implementation. -/

namespace Sys2Proof.Config

/-- The call table has 1024 records (section 2.1, R194). -/
def records : Nat := 1024

/-- The record floor: FREE records that a GENERAL arrival may not take (R20). -/
def recordFloor : Nat := 32

/-- Places of the wait list (R64). -/
def waitPlaces : Nat := 128

/-- The most victims one selection takes (R93). -/
def victimLimit : Nat := 8

/-- The most requests a port has in flight (R182). -/
def inFlightLimit : Nat := 4

/-- The clock count of a frame (R181). -/
def frameClocks : Nat := 96

/-- The least and the greatest capacity target (R11). -/
def targetMin : Nat := 64

/-- See `targetMin`. -/
def targetMax : Nat := 4095

/-- Where an attempt count saturates (R45, R113). -/
def attemptMax : Nat := 65535

/-- Ticks of one second of a setup hold (R27). -/
def ticksPerSecond : Nat := 100

/-- Ticks of one 100 ms step of a wait limit or stall limit (R21, R83). -/
def ticksPerStep : Nat := 10

/-- The greatest difference, in ticks, that SET_TIME slews (R155). -/
def slewMax : Int := 200

/-- Where the notice count of a summary saturates (R170). -/
def noticeCountMax : Nat := 31

/-- Top event and window numbers that mean "none" (R176, R186). -/
def noTopEvent : Nat := 15

/-- See `noTopEvent`. -/
def noWindow : Nat := 8

/-- Part code and revision that READ_IDENT reports (R194). -/
def partCode : Nat := 0x416

/-- See `partCode`. -/
def revision : Nat := 1

end Sys2Proof.Config
end

