-- ==== Sys2Proof/Syntax.lean ====
section
/-! DEFINITION. Frames, requests and the commands of the JT416: one constructor of `Instr` for each row of
spec/opcode_table.json. The operands of a request are the argument fields of the request table of R186, at
the widths at which the frame carries them. -/

namespace Sys2Proof

/-- Every frame is 12 bytes, byte 0 first (R186). -/
structure Frame where
  b0 : Byte
  b1 : Byte
  b2 : Byte
  b3 : Byte
  b4 : Byte
  b5 : Byte
  b6 : Byte
  b7 : Byte
  b8 : Byte
  b9 : Byte
  b10 : Byte
  b11 : Byte
  deriving DecidableEq, Repr

/-- Arguments of ADMIT (R41, R186). -/
structure AdmitArgs where
  ref : Half
  cls : Byte
  nowait : Bool
  deriving DecidableEq, Repr

/-- Arguments of RELEASE, CANCEL and SETTLE (section 2.7, R186). -/
structure RecordArgs where
  id : Half
  ref : Half
  deriving DecidableEq, Repr

/-- Arguments of WRITE_CLASS (R133, R186). -/
structure WriteClassArgs where
  gen : Half
  cls : Byte
  kind : Byte
  level : Byte
  preempt : Bool
  vulnerable : Bool
  continuous : Bool
  u : Byte
  v : Byte
  hold : Byte
  deriving DecidableEq, Repr

/-- Arguments of WRITE_RATES (R136, R186). -/
structure WriteRatesArgs where
  gen : Half
  profile : Byte
  cls : Byte
  weight : BitVec 4
  trickle : BitVec 4
  reload : BitVec 10
  mode : BitVec 4
  mayWait : Bool
  waitLimit : Byte
  deriving DecidableEq, Repr

/-- Arguments of WRITE_THRESHOLDS (R138, R186). -/
structure WriteThresholdsArgs where
  gen : Half
  profile : Byte
  u1 : Byte
  u2 : Byte
  u3 : Byte
  d1 : Byte
  d2 : Byte
  d3 : Byte
  deriving DecidableEq, Repr

/-- Arguments of WRITE_LIMITS (R139, R186). -/
structure WriteLimitsArgs where
  gen : Half
  profile : Byte
  floor : BitVec 10
  interval : Byte
  grace : Byte
  stall : Byte
  exhaust : Byte
  deriving DecidableEq, Repr

/-- Arguments of SELECT_PROFILE (R141, R186). -/
structure SelectProfileArgs where
  gen : Half
  profile : Byte
  deriving DecidableEq, Repr

/-- Arguments of WRITE_WINDOW (R157, R186). -/
structure WriteWindowArgs where
  gen : Half
  window : BitVec 4
  enabled : Bool
  daily : Bool
  lock : Bool
  start : BitVec 32
  duration : Half
  profile : BitVec 4
  minimum : BitVec 4
  deriving DecidableEq, Repr

/-- Arguments of WRITE_WINDOW_BARS (R158, R186). -/
structure WriteWindowBarsArgs where
  gen : Half
  window : BitVec 4
  mask : Half
  deriving DecidableEq, Repr

/-- Arguments of READ_POLICY: the item code and the argument bytes 3 and 4 (R149, R186). -/
structure ReadPolicyArgs where
  item : Byte
  arg1 : Byte
  arg2 : Byte
  deriving DecidableEq, Repr

/-- Arguments of SET_TIME (R154, R186). -/
structure SetTimeArgs where
  seconds : BitVec 32
  ticks : Byte
  deriving DecidableEq, Repr

/-- A request as its frame spells it: the request table of R186, and a code that is not in it (R187). -/
inductive Request where
  | admitCall (a : AdmitArgs)
  | release (a : RecordArgs)
  | cancel (a : RecordArgs)
  | settle (a : RecordArgs)
  | query (id : Half)
  | fetchNotice
  | readEvents
  | setEnables (mask : Half)
  | readPool
  | readClass (cls : Byte)
  | readStatus
  | barSet (mask : Half)
  | barClear (mask : Half)
  | rearm (cls : Byte)
  | writeClass (a : WriteClassArgs)
  | writeRates (a : WriteRatesArgs)
  | writeThresholds (a : WriteThresholdsArgs)
  | writeLimits (a : WriteLimitsArgs)
  | writeCapacity (target : Half)
  | selectProfile (a : SelectProfileArgs)
  | writeWindow (a : WriteWindowArgs)
  | writeWindowBars (a : WriteWindowBarsArgs)
  | readPolicy (a : ReadPolicyArgs)
  | setTime (a : SetTimeArgs)
  | readTime
  | portClear
  | readIdent
  | unknown (code : Byte)
  deriving DecidableEq, Repr

/-- The commands of the block, one for each row of spec/opcode_table.json. `port` is the port concerned and
`tag` the tag byte of the request (R186). A request command is the engine's step of R189: the choice of the
port and the whole execution of its request. -/
inductive Instr where
  | admitCall (port : Port) (tag : Byte) (a : AdmitArgs)
  | release (port : Port) (tag : Byte) (a : RecordArgs)
  | cancel (port : Port) (tag : Byte) (a : RecordArgs)
  | settle (port : Port) (tag : Byte) (a : RecordArgs)
  | query (port : Port) (tag : Byte) (id : Half)
  | fetchNotice (port : Port) (tag : Byte)
  | readEvents (port : Port) (tag : Byte)
  | setEnables (port : Port) (tag : Byte) (mask : Half)
  | readPool (port : Port) (tag : Byte)
  | readClass (port : Port) (tag : Byte) (cls : Byte)
  | readStatus (port : Port) (tag : Byte)
  | barSet (port : Port) (tag : Byte) (mask : Half)
  | barClear (port : Port) (tag : Byte) (mask : Half)
  | rearm (port : Port) (tag : Byte) (cls : Byte)
  | writeClass (port : Port) (tag : Byte) (a : WriteClassArgs)
  | writeRates (port : Port) (tag : Byte) (a : WriteRatesArgs)
  | writeThresholds (port : Port) (tag : Byte) (a : WriteThresholdsArgs)
  | writeLimits (port : Port) (tag : Byte) (a : WriteLimitsArgs)
  | writeCapacity (port : Port) (tag : Byte) (target : Half)
  | selectProfile (port : Port) (tag : Byte) (a : SelectProfileArgs)
  | writeWindow (port : Port) (tag : Byte) (a : WriteWindowArgs)
  | writeWindowBars (port : Port) (tag : Byte) (a : WriteWindowBarsArgs)
  | readPolicy (port : Port) (tag : Byte) (a : ReadPolicyArgs)
  | setTime (port : Port) (tag : Byte) (a : SetTimeArgs)
  | readTime (port : Port) (tag : Byte)
  | portClear (port : Port) (tag : Byte)
  | readIdent (port : Port) (tag : Byte)
  | unknownRequestCode (port : Port) (tag : Byte) (code : Byte)
  /-- Falling edge of CS# (R181). -/
  | transactionStart (port : Port)
  /-- Rising edge of CS# after `clocks` rising edges of SCLK, with the 96 bits sampled from MOSI when the
  count is 96 (R180, R181). -/
  | transactionEnd (port : Port) (clocks : Nat) (frame : Frame)
  /-- Falling edge of PRST# (R190). -/
  | portReset (port : Port)
  /-- One record of the port reset sequence of the port (R38, R39). -/
  | portResetRecord (port : Port)
  /-- Rising edge of PRST# (R190). -/
  | portResetRelease (port : Port)
  /-- Falling edge of RESET# (R191). -/
  | resetAssert
  /-- Rising edge of RESET#, or power-up (R191). -/
  | powerOnReset
  /-- The 10 ms tick (R151). -/
  | tick
  /-- The setup timer of record `id` expires (R28, R29). -/
  | setupTimerExpiry (id : RecId)
  /-- The grace timer of record `id` expires (R98). -/
  | graceExpiry (id : RecId)
  /-- The wait deadline of record `id` expires (R72, R73). -/
  | deadlineExpiry (id : RecId)
  /-- The Pacing Unit's event of an interval boundary (R112). -/
  | intervalBoundary
  /-- The Wait List's event of an interval boundary (R79). -/
  | waitListBoundaryWork
  /-- A second of the time of day ends (R152, R153). -/
  | secondBoundary
  deriving DecidableEq, Repr

end Sys2Proof
end

