-- ==== Sys2Proof/WellFormed.lean ====
section
/-! DEFINITION. Which commands are well formed. The widths of the operands already keep every other field
within what a frame can carry; a class, profile, window or record id that is out of range is well formed,
since the part answers it BAD_REQUEST (R187). -/

namespace Sys2Proof

/-- The code bytes of the request table of R186. NULL, 00h, is no request (R182). -/
def requestCodes : List Byte :=
  [0x01, 0x02, 0x03, 0x04, 0x05, 0x06, 0x07, 0x08, 0x09, 0x0A, 0x0B, 0x10, 0x11, 0x12] ++
  [0x21, 0x22, 0x23, 0x24, 0x25, 0x26, 0x27, 0x28, 0x29, 0x30, 0x31, 0x3E, 0x3F]

/-- An unknown request carries a code that is neither in the request table nor NULL (R182, R187). -/
def Request.wf : Request → Bool
  | .unknown code => code != 0 && !requestCodes.contains code
  | _ => true

/-- A timer expiry names one of the 1024 records (section 2.1), and an UNKNOWN_REQUEST_CODE a code that is
unknown (R187). -/
def Instr.wf : Instr → Bool
  | .unknownRequestCode _ _ code => Request.wf (.unknown code)
  | .setupTimerExpiry id => id < Config.records
  | .graceExpiry id => id < Config.records
  | .deadlineExpiry id => id < Config.records
  | _ => true

end Sys2Proof
end

