-- ==== Sys2Proof/Decode.lean ====
section
/-! DEFINITION. The request frames of R186: reading one, total on any twelve bytes, and writing one. -/

namespace Sys2Proof

/-- A multi-byte field is sent most significant byte first (R186). -/
def ofBytes2 (hi lo : Byte) : Half := hi ++ lo

/-- See `ofBytes2`. -/
def ofBytes4 (a b c d : Byte) : BitVec 32 := a ++ b ++ c ++ d

/-- The more significant byte of a two-byte field (R186). -/
def hiByte (h : Half) : Byte := h.extractLsb' 8 8

/-- The less significant byte of a two-byte field (R186). -/
def loByte (h : Half) : Byte := h.extractLsb' 0 8

/-- The more significant half of a four-byte field (R186). -/
def hiHalf (w : BitVec 32) : Half := w.extractLsb' 16 16

/-- The less significant half of a four-byte field (R186). -/
def loHalf (w : BitVec 32) : Half := w.extractLsb' 0 16

/-- Bits 7 to 4 of a byte. -/
def hiNibble (b : Byte) : BitVec 4 := b.extractLsb' 4 4

/-- Bits 3 to 0 of a byte. -/
def loNibble (b : Byte) : BitVec 4 := b.extractLsb' 0 4

/-- A byte whose bit n is the n-th flag of the list, the first flag in bit 0 (R188). -/
def flagsByte : List Bool → Byte
  | [] => 0
  | f :: fs => (flagsByte fs <<< 1) ||| (if f then 1 else 0)

/-- The record id and call reference of RELEASE, CANCEL and SETTLE (R186). -/
def recordArgs (f : Frame) : RecordArgs :=
  { id := ofBytes2 f.b2 f.b3, ref := ofBytes2 f.b4 f.b5 }

/-- The arguments of WRITE_CLASS (R186). -/
def writeClassArgs (f : Frame) : WriteClassArgs :=
  { gen := ofBytes2 f.b2 f.b3, cls := f.b4, kind := f.b5, level := f.b6,
    preempt := f.b7.getLsbD 0, vulnerable := f.b7.getLsbD 1, continuous := f.b7.getLsbD 2,
    u := f.b8, v := f.b9, hold := f.b10 }

/-- The arguments of WRITE_RATES (R186). -/
def writeRatesArgs (f : Frame) : WriteRatesArgs :=
  { gen := ofBytes2 f.b2 f.b3, profile := f.b4, cls := f.b5,
    weight := hiNibble f.b6, trickle := loNibble f.b6,
    reload := (ofBytes2 f.b7 f.b8).extractLsb' 0 10,
    mode := loNibble f.b9, mayWait := f.b9.getLsbD 7, waitLimit := f.b10 }

/-- The arguments of WRITE_THRESHOLDS (R186). -/
def writeThresholdsArgs (f : Frame) : WriteThresholdsArgs :=
  { gen := ofBytes2 f.b2 f.b3, profile := f.b4,
    u1 := f.b5, u2 := f.b6, u3 := f.b7, d1 := f.b8, d2 := f.b9, d3 := f.b10 }

/-- The arguments of WRITE_LIMITS (R186). -/
def writeLimitsArgs (f : Frame) : WriteLimitsArgs :=
  { gen := ofBytes2 f.b2 f.b3, profile := f.b4, floor := (ofBytes2 f.b5 f.b6).extractLsb' 0 10,
    interval := f.b7, grace := f.b8, stall := f.b9, exhaust := f.b10 }

/-- The arguments of WRITE_WINDOW (R186). -/
def writeWindowArgs (f : Frame) : WriteWindowArgs :=
  { gen := ofBytes2 f.b2 f.b3, window := loNibble f.b4,
    enabled := f.b4.getLsbD 7, daily := f.b4.getLsbD 6, lock := f.b4.getLsbD 5,
    start := ofBytes4 f.b5 f.b6 f.b7 f.b8, duration := ofBytes2 f.b9 f.b10,
    profile := hiNibble f.b11, minimum := loNibble f.b11 }

/-- The request that a frame spells: its code byte and argument bytes by the request table of R186. Bits and
bytes that the request does not use are ignored. A code that is not in the table is `unknown` (R187). -/
def decodeRequest (f : Frame) : Request :=
  match f.b0.toNat with
  | 0x01 => .admitCall { ref := ofBytes2 f.b2 f.b3, cls := f.b4, nowait := f.b5.getLsbD 0 }
  | 0x02 => .release (recordArgs f)
  | 0x03 => .cancel (recordArgs f)
  | 0x04 => .settle (recordArgs f)
  | 0x05 => .query (ofBytes2 f.b2 f.b3)
  | 0x06 => .fetchNotice
  | 0x07 => .readEvents
  | 0x08 => .setEnables (ofBytes2 f.b2 f.b3)
  | 0x09 => .readPool
  | 0x0A => .readClass f.b2
  | 0x0B => .readStatus
  | 0x10 => .barSet (ofBytes2 f.b2 f.b3)
  | 0x11 => .barClear (ofBytes2 f.b2 f.b3)
  | 0x12 => .rearm f.b2
  | 0x21 => .writeClass (writeClassArgs f)
  | 0x22 => .writeRates (writeRatesArgs f)
  | 0x23 => .writeThresholds (writeThresholdsArgs f)
  | 0x24 => .writeLimits (writeLimitsArgs f)
  | 0x25 => .writeCapacity (ofBytes2 f.b2 f.b3)
  | 0x26 => .selectProfile { gen := ofBytes2 f.b2 f.b3, profile := f.b4 }
  | 0x27 => .writeWindow (writeWindowArgs f)
  | 0x28 => .writeWindowBars
      { gen := ofBytes2 f.b2 f.b3, window := loNibble f.b4, mask := ofBytes2 f.b5 f.b6 }
  | 0x29 => .readPolicy { item := f.b2, arg1 := f.b3, arg2 := f.b4 }
  | 0x30 => .setTime { seconds := ofBytes4 f.b2 f.b3 f.b4 f.b5, ticks := f.b6 }
  | 0x31 => .readTime
  | 0x3E => .portClear
  | 0x3F => .readIdent
  | _ => .unknown f.b0

/-- A frame from its code, its tag and the bytes from byte 2 on; the rest are 0. -/
def frameOf (code tag : Byte) (args : List Byte) : Frame :=
  { b0 := code, b1 := tag, b2 := args.getD 0 0, b3 := args.getD 1 0, b4 := args.getD 2 0,
    b5 := args.getD 3 0, b6 := args.getD 4 0, b7 := args.getD 5 0, b8 := args.getD 6 0,
    b9 := args.getD 7 0, b10 := args.getD 8 0, b11 := args.getD 9 0 }

/-- The two bytes of a two-byte field, most significant first (R186). -/
def bytes2 (h : Half) : List Byte := [hiByte h, loByte h]

/-- The four bytes of a four-byte field, most significant first (R186). -/
def bytes4 (w : BitVec 32) : List Byte := bytes2 (hiHalf w) ++ bytes2 (loHalf w)

/-- The frame of a request: the request table of R186, with 0 in every bit that the request does not use. -/
def encodeRequest (tag : Byte) : Request → Frame
  | .admitCall a => frameOf 0x01 tag (bytes2 a.ref ++ [a.cls, flagsByte [a.nowait]])
  | .release a => frameOf 0x02 tag (bytes2 a.id ++ bytes2 a.ref)
  | .cancel a => frameOf 0x03 tag (bytes2 a.id ++ bytes2 a.ref)
  | .settle a => frameOf 0x04 tag (bytes2 a.id ++ bytes2 a.ref)
  | .query id => frameOf 0x05 tag (bytes2 id)
  | .fetchNotice => frameOf 0x06 tag []
  | .readEvents => frameOf 0x07 tag []
  | .setEnables mask => frameOf 0x08 tag (bytes2 mask)
  | .readPool => frameOf 0x09 tag []
  | .readClass cls => frameOf 0x0A tag [cls]
  | .readStatus => frameOf 0x0B tag []
  | .barSet mask => frameOf 0x10 tag (bytes2 mask)
  | .barClear mask => frameOf 0x11 tag (bytes2 mask)
  | .rearm cls => frameOf 0x12 tag [cls]
  | .writeClass a => frameOf 0x21 tag (bytes2 a.gen ++ [a.cls, a.kind, a.level] ++
      [flagsByte [a.preempt, a.vulnerable, a.continuous], a.u, a.v, a.hold])
  | .writeRates a => frameOf 0x22 tag (bytes2 a.gen ++ [a.profile, a.cls, a.weight ++ a.trickle] ++
      bytes2 (a.reload.setWidth 16) ++ [BitVec.ofBool a.mayWait ++ (0 : BitVec 3) ++ a.mode, a.waitLimit])
  | .writeThresholds a => frameOf 0x23 tag (bytes2 a.gen ++ [a.profile, a.u1, a.u2, a.u3, a.d1, a.d2, a.d3])
  | .writeLimits a => frameOf 0x24 tag (bytes2 a.gen ++ [a.profile] ++ bytes2 (a.floor.setWidth 16) ++
      [a.interval, a.grace, a.stall, a.exhaust])
  | .writeCapacity target => frameOf 0x25 tag (bytes2 target)
  | .selectProfile a => frameOf 0x26 tag (bytes2 a.gen ++ [a.profile])
  | .writeWindow a => frameOf 0x27 tag (bytes2 a.gen ++
      [BitVec.ofBool a.enabled ++ BitVec.ofBool a.daily ++ BitVec.ofBool a.lock ++ (0 : BitVec 1) ++ a.window] ++
      bytes4 a.start ++ bytes2 a.duration ++ [a.profile ++ a.minimum])
  | .writeWindowBars a => frameOf 0x28 tag (bytes2 a.gen ++ [(0 : BitVec 4) ++ a.window] ++ bytes2 a.mask)
  | .readPolicy a => frameOf 0x29 tag [a.item, a.arg1, a.arg2]
  | .setTime a => frameOf 0x30 tag (bytes4 a.seconds ++ [a.ticks])
  | .readTime => frameOf 0x31 tag []
  | .portClear => frameOf 0x3E tag []
  | .readIdent => frameOf 0x3F tag []
  | .unknown code => frameOf code tag []

/-- The command that a word spells by the bits of spec/opcode_table.json. The table gives no row any bits,
so no word spells a command. -/
def decodeTableWord (_nbits _w : Nat) : Option Instr := none

end Sys2Proof
end

