-- ==== Sys2Proof/Machine/State.lean ====
section
/-! DEFINITION. The state of the JT416, block by block, as plain data, and its value after power-on reset.
Counts, units and timers are natural numbers; bit vectors stand where the manual carries bits. -/

namespace Sys2Proof.Machine

/-- The kind of a class (section 7.2). -/
inductive Kind where
  | unused | emergency | priority | general
  deriving DecidableEq, Repr

/-- The pacing mode of a rate entry (section 7.3). -/
inductive Mode where
  | paced | fixed | oneshot
  deriving DecidableEq, Repr

/-- The kind of a pending notice (section 9.1). -/
inductive NoticeKind where
  | granted | preempt | reprieved | reclaimed | expired
  deriving DecidableEq, Repr

/-- The events of section 9.3, in the order of their numbers 0 to 8. -/
inductive Event where
  | stalled | exhausted | notice | pressure | window | policy | classSpent | debtClear | time
  deriving DecidableEq, Repr

/-- The result codes of R186. -/
inductive ResultCode where
  | done | admitted | waiting | collecting | barred | paced | congested | listFull | tableFull
  | duplicate | unusedClass | notFound | wrongState | late | notOwner | stale | locked | classLive
  | badRequest
  deriving DecidableEq, Repr

/-- The state of a holding that is not a victim, which is also the prior state of a victim (sections 2.5 and
5.1). `remaining` is the setup remaining in ticks (R27); at 0 the setup timer has expired and its event is due. -/
inductive HoldState where
  | setup (remaining : Nat)
  | sustain
  | continuous
  deriving DecidableEq, Repr

/-- The wait-list fields of a record (R65). At `deadline` 0 the deadline has expired and its event is due. -/
structure WaitFields where
  waitLimit : Nat
  need : Nat
  deadline : Nat
  waited : Nat
  deriving DecidableEq, Repr

/-- The state of a record that is not FREE, with the fields that exist in that state (sections 2.1 and 2.5).
At `grace` 0 the grace timer has expired and its event is due (R97). -/
inductive RecState where
  | waiting (w : WaitFields)
  | collecting (w : WaitFields) (collected : Nat) (victims : List RecId)
  | holding (h : HoldState)
  | preemptPending (prior : HoldState) (grace : Nat) (collector : RecId)
  | reclaimed
  | expired
  deriving DecidableEq, Repr

/-- A call record that is not FREE (section 2.1). Its units held follow from the state (R19). -/
structure CallRecord where
  owner : Port
  ref : Half
  cls : ClassId
  kind : Kind
  level : Level
  vulnerable : Bool
  continuous : Bool
  u : Nat
  v : Nat
  hold : Nat
  state : RecState
  notice : Option NoticeKind
  deriving DecidableEq, Repr

/-- The trunk pool (section 1.1), with the effective floor it keeps (R4). -/
structure Pool where
  capacity : Nat
  target : Nat
  free : Nat
  collected : Nat
  feff : Nat
  exhausted : Bool
  deriving DecidableEq, Repr

/-- The call table: the records that are not FREE by rising id (log 4), the holding order list from its head
to its tail (R24), and the record count of each class (R22). -/
structure CallTable where
  records : List (RecId × CallRecord)
  holdings : List RecId
  classCount : Vector Nat 16
  deriving DecidableEq, Repr

/-- The wait list (section 4.1). `boundaryDue` says that an interval boundary was reached whose boundary work
the Wait List has still to take (R79). -/
structure WaitList where
  levels : Vector (List RecId) 8
  arrival : List RecId
  count : Nat
  stalled : Bool
  boundaryDue : Bool
  deriving DecidableEq, Repr

/-- What the Pacing Unit keeps for a class (section 6.1). -/
structure ClassPacing where
  allowance : Nat
  attempts : Nat
  closed : Nat
  exhausted : Bool
  deriving DecidableEq, Repr

/-- The Pacing Unit (section 6.1). `boundaryDue` says that an interval boundary was reached that the Pacing
Unit has still to take (R112), `reloadOpen` that no tick has come since it was reached (log 6). -/
structure Pacing where
  countdown : Nat
  level : Nat
  boundaryDue : Bool
  reloadOpen : Bool
  classes : Vector ClassPacing 16
  deriving DecidableEq, Repr

/-- An entry of the class table (section 7.2). -/
structure ClassEntry where
  kind : Kind
  level : Level
  preempt : Bool
  vulnerable : Bool
  u : Nat
  v : Nat
  hold : Nat
  continuous : Bool
  deriving DecidableEq, Repr

/-- A rate entry of a profile (section 7.3): w, R, m, the mode, may-wait and the wait limit. -/
structure RateEntry where
  weight : Nat
  reload : Nat
  trickle : Nat
  mode : Mode
  mayWait : Bool
  waitLimit : Nat
  deriving DecidableEq, Repr

/-- The pressure thresholds of a profile (R138). -/
structure Thresholds where
  u1 : Nat
  u2 : Nat
  u3 : Nat
  d1 : Nat
  d2 : Nat
  d3 : Nat
  deriving DecidableEq, Repr

/-- The limits of a profile (R139): F, the interval, the grace, the stall limit and X. -/
structure Limits where
  floor : Nat
  interval : Nat
  grace : Nat
  stall : Nat
  exhaust : Nat
  deriving DecidableEq, Repr

/-- A surge window (section 8.5). -/
structure Window where
  enabled : Bool
  start : BitVec 32
  duration : Nat
  daily : Bool
  profile : ProfileId
  minimum : Nat
  lock : Bool
  bars : ClassSet
  deriving DecidableEq, Repr

/-- The policy image (section 7.1). -/
structure Policy where
  classes : Vector ClassEntry 16
  rates : Vector (Vector RateEntry 16) 4
  thresholds : Vector Thresholds 4
  limits : Vector Limits 4
  base : ProfileId
  generation : Half
  bars : ClassSet
  windows : Vector Window 8
  deriving DecidableEq, Repr

/-- The time state (R152). -/
inductive TimeState where
  | unset | running
  deriving DecidableEq, Repr

/-- How a second ended: after 99, 100 or 101 ticks (R153). -/
inductive SecondEnd where
  | short | full | held
  deriving DecidableEq, Repr

/-- The Time Base and Window Unit (sections 8.1, 8.2 and 8.6). `held` says that the tick-in-second stands at 99
for its one tick more (R153); `secondDue` that a second has ended and its boundary is still to be taken. -/
structure TimeBase where
  ticks : BitVec 32
  state : TimeState
  seconds : BitVec 32
  tickInSecond : Nat
  slew : Int
  held : Bool
  secondDue : Option SecondEnd
  activeWindow : Option WindowId
  activeProfile : ProfileId
  deriving DecidableEq, Repr

/-- The eight data bytes of a response, bytes 4 to 11 of its frame (R186). -/
structure Data where
  d4 : Byte
  d5 : Byte
  d6 : Byte
  d7 : Byte
  d8 : Byte
  d9 : Byte
  d10 : Byte
  d11 : Byte
  deriving DecidableEq, Repr

/-- A response that waits for delivery (R184). -/
structure Response where
  tag : Byte
  result : ResultCode
  data : Data
  deriving DecidableEq, Repr

/-- A request in flight (section 10.1). -/
structure InFlight where
  frame : Frame
  executed : Bool
  deriving DecidableEq, Repr

/-- A transaction in progress: CS# is low. `taken` says that the port will take it (R180), `out` is the frame
on MISO, absent while MISO is high impedance, `carries` says that the frame carries the response at the head
of the response queue (R181), and `rejectShown` that its summary showed REJECT (R183). -/
structure Transaction where
  taken : Bool
  out : Option Frame
  carries : Bool
  rejectShown : Bool
  deriving DecidableEq, Repr

/-- A port reset sequence in progress: begun by PRST# (R190), or by a PORT_CLEAR, whose response is formed
first and waits for the end of the sequence (R192), unless PRST# has fallen since and ended the request. -/
inductive ResetSeq where
  | byPin
  | byClear (response : Option Response)
  deriving DecidableEq, Repr

/-- What the part keeps for a port (sections 9.1, 9.3 and 10.1), its pins PRST# and CS# among it. -/
structure PortState where
  inflight : List InFlight
  responses : List Response
  reject : Bool
  prstLow : Bool
  transaction : Option Transaction
  resetSeq : Option ResetSeq
  notices : List RecId
  events : EventSet
  enables : EventSet
  stalledArm : Bool
  exhaustedArm : Bool
  deriving DecidableEq, Repr

/-- The whole part, and the queue of the commands that wait. -/
structure State where
  pool : Pool
  table : CallTable
  wait : WaitList
  slots : Vector (Option RecId) 8
  pacing : Pacing
  policy : Policy
  time : TimeBase
  ports : Vector PortState 4
  pointer : Port
  resetLow : Bool
  pending : List Instr
  deriving DecidableEq, Repr

/-- No command of the JT416 stops the part: a request it refuses is answered (R58, R143, R187), and a frame it
cannot take sets REJECT (R181, R182). There is no fault. -/
inductive Fault
  deriving DecidableEq, Repr

/-- A command without a meaning. -/
inductive Refusal where
  /-- Raised by the dispatch of a command that has no meaning yet, with its mnemonic. Safe: the model stops
  where the part goes on. No command of this model raises it. -/
  | notModelled (mnemonic : String)
  deriving DecidableEq, Repr

/-- The Default of each class entry (section 7.2). -/
def defaultClass (c : ClassId) : ClassEntry :=
  if c = 0 then ⟨.emergency, 0, true, false, 4, 2, 20, true⟩
  else if c = 1 then ⟨.priority, 1, true, false, 4, 2, 20, false⟩
  else ⟨.general, 4, false, true, 2, 1, 10, false⟩

/-- The Default of each rate entry, the same in all four profiles (section 7.3). -/
def defaultRate (c : ClassId) : RateEntry :=
  if c < 2 then ⟨0, 0, 0, .paced, true, 250⟩ else ⟨1, 64, 1, .paced, false, 20⟩

/-- The default thresholds of each profile (R138). -/
def defaultThresholds : Thresholds := ⟨60, 80, 95, 50, 70, 90⟩

/-- The default limits of each profile (R139). -/
def defaultLimits : Limits := ⟨64, 25, 50, 20, 16⟩

/-- The default of each surge window: disabled (section 8.5). -/
def defaultWindow : Window := ⟨false, 0, 1, false, 0, 0, false, 0⟩

/-- The policy image after power-on reset (R150, R164). -/
def Policy.reset : Policy where
  classes := Vector.ofFn defaultClass
  rates := Vector.replicate 4 (Vector.ofFn defaultRate)
  thresholds := Vector.replicate 4 defaultThresholds
  limits := Vector.replicate 4 defaultLimits
  base := 0
  generation := 0
  bars := 0
  windows := Vector.replicate 8 defaultWindow

/-- The enable set after any reset: STALLED, EXHAUSTED and NOTICE (R178, R179). -/
def defaultEnables : EventSet := 0b000000111

/-- A port after power-on reset, with PRST# and CS# high (R179, R195, log 9). -/
def PortState.reset : PortState where
  inflight := []
  responses := []
  reject := false
  prstLow := false
  transaction := none
  resetSeq := none
  notices := []
  events := 0
  enables := defaultEnables
  stalledArm := true
  exhaustedArm := true

/-- The pool after power-on reset (R17). -/
def Pool.reset : Pool := ⟨1024, 1024, 1024, 0, 64, false⟩

/-- The call table after power-on reset (R40). -/
def CallTable.reset : CallTable := ⟨[], [], Vector.replicate 16 0⟩

/-- The wait list after power-on reset (R86). -/
def WaitList.reset : WaitList := ⟨Vector.replicate 8 [], [], 0, false, false⟩

/-- The Pacing Unit after power-on reset (R131): each allowance is R of the class in profile 0. -/
def Pacing.reset : Pacing :=
  ⟨25, 0, false, false, Vector.ofFn fun c => ⟨(defaultRate c).reload, 0, 0, false⟩⟩

/-- The Time Base and Window Unit after power-on reset (R164). -/
def TimeBase.reset : TimeBase := ⟨0, .unset, 0, 0, 0, false, none, none, 0⟩

/-- The part right after power-on reset, RESET# high (R17, R40, R86, R110, R131, R150, R164, R179, R195), with
no command waiting. -/
def State.reset : State where
  pool := Pool.reset
  table := CallTable.reset
  wait := WaitList.reset
  slots := Vector.replicate 8 none
  pacing := Pacing.reset
  policy := Policy.reset
  time := TimeBase.reset
  ports := Vector.replicate 4 PortState.reset
  pointer := 0
  resetLow := false
  pending := []

end Sys2Proof.Machine
end

