-- ==== Sys2Proof/Machine/Operands.lean ====
section
/-! DEFINITION. Argument ranges (R187), clamps (R11, R133, R136, R138, R139, R154, R157), the codes of R186 and
the placing of response data (R188). -/

namespace Sys2Proof.Machine

/-- A number as one byte of a frame. -/
def byteOf (n : Nat) : Byte := BitVec.ofNat 8 n

/-- A number as the two bytes of a frame, most significant first (R186, R188). -/
def numBytes2 (n : Nat) : List Byte := bytes2 (BitVec.ofNat 16 n)

/-- Data placed from byte 4; the bytes that are not given are 0 (R186, R188). -/
def dataOf (bs : List Byte) : Data :=
  { d4 := bs.getD 0 0, d5 := bs.getD 1 0, d6 := bs.getD 2 0, d7 := bs.getD 3 0,
    d8 := bs.getD 4 0, d9 := bs.getD 5 0, d10 := bs.getD 6 0, d11 := bs.getD 7 0 }

/-- Response data that is all 0. -/
def noData : Data := dataOf []

/-- A class byte that is in range (R187). -/
def classOf? (b : Byte) : Option ClassId :=
  if h : b.toNat < 16 then some ⟨b.toNat, h⟩ else none

/-- A profile byte that is in range (R187). -/
def profileOf? (b : Byte) : Option ProfileId :=
  if h : b.toNat < 4 then some ⟨b.toNat, h⟩ else none

/-- A profile field of WRITE_WINDOW that is in range (R157, R187). -/
def windowProfileOf? (b : BitVec 4) : Option ProfileId :=
  if h : b.toNat < 4 then some ⟨b.toNat, h⟩ else none

/-- A window field of four bits that is in range (R157, R158, R187). -/
def windowOf? (b : BitVec 4) : Option WindowId :=
  if h : b.toNat < 8 then some ⟨b.toNat, h⟩ else none

/-- A window byte of READ_POLICY that is in range (R149, R187). -/
def windowByteOf? (b : Byte) : Option WindowId :=
  if h : b.toNat < 8 then some ⟨b.toNat, h⟩ else none

/-- A record id that is in range (R187). -/
def recordOf? (h : Half) : Option RecId :=
  if h.toNat < Config.records then some h.toNat else none

/-- A kind code that is in range (R133, R186). -/
def kindOf? (b : Byte) : Option Kind :=
  match b.toNat with
  | 0 => some .unused
  | 1 => some .emergency
  | 2 => some .priority
  | 3 => some .general
  | _ => none

/-- A mode code that is in range (R136, R186). -/
def modeOf? (b : BitVec 4) : Option Mode :=
  match b.toNat with
  | 0 => some .paced
  | 1 => some .fixed
  | 2 => some .oneshot
  | _ => none

/-- The code of a kind (R186). -/
def Kind.code : Kind → Nat
  | .unused => 0
  | .emergency => 1
  | .priority => 2
  | .general => 3

/-- The code of a mode (R186). -/
def Mode.code : Mode → Nat
  | .paced => 0
  | .fixed => 1
  | .oneshot => 2

/-- The code of a notice kind (R186). -/
def NoticeKind.code : NoticeKind → Nat
  | .granted => 1
  | .preempt => 2
  | .reprieved => 3
  | .reclaimed => 4
  | .expired => 5

/-- The code of a record state (R186); 0 is FREE. -/
def RecState.code : RecState → Nat
  | .waiting _ => 1
  | .collecting _ _ _ => 2
  | .holding (.setup _) => 3
  | .holding .sustain => 4
  | .holding .continuous => 5
  | .preemptPending _ _ _ => 6
  | .reclaimed => 7
  | .expired => 8

/-- The code of a prior state (R186). -/
def HoldState.priorCode : HoldState → Nat
  | .setup _ => 1
  | .sustain => 2
  | .continuous => 3

/-- The code of the time state (R186). -/
def TimeState.code : TimeState → Nat
  | .unset => 0
  | .running => 1

/-- The code byte of a result (R186). -/
def ResultCode.code : ResultCode → Byte
  | .done => 0x01
  | .admitted => 0x02
  | .waiting => 0x03
  | .collecting => 0x04
  | .barred => 0x10
  | .paced => 0x11
  | .congested => 0x12
  | .listFull => 0x13
  | .tableFull => 0x14
  | .duplicate => 0x15
  | .unusedClass => 0x16
  | .notFound => 0x20
  | .wrongState => 0x21
  | .late => 0x22
  | .notOwner => 0x23
  | .stale => 0x30
  | .locked => 0x31
  | .classLive => 0x32
  | .badRequest => 0x3F

/-- The number of the active window, or 8 when none is active (R186). -/
def windowCode : Option WindowId → Nat
  | none => Config.noWindow
  | some w => w.val

/-- A number brought into the range `lo` to `hi`. -/
def clampTo (lo hi n : Nat) : Nat := max lo (min hi n)

/-- The level that WRITE_CLASS applies for a written kind: first at most 7, then the range of the kind (R133). -/
def clampLevel (k : Kind) (n : Nat) : Level :=
  match k with
  | .unused => if n < 8 then ⟨n % 8, Nat.mod_lt n (by decide)⟩ else 7
  | .emergency => 0
  | .priority => if n = 0 then 1 else if n = 1 then 1 else if n = 2 then 2 else 3
  | .general => if n < 2 then 2 else if n < 8 then ⟨n % 8, Nat.mod_lt n (by decide)⟩ else 7

/-- The class entry that WRITE_CLASS applies (R133). -/
def clampClass (k : Kind) (a : WriteClassArgs) : ClassEntry :=
  let u := max 1 a.u.toNat
  { kind := k
    level := clampLevel k a.level.toNat
    preempt :=
      match k with
      | .emergency => true
      | .general => false
      | .priority => a.preempt
      | .unused => a.preempt
    vulnerable :=
      match k with
      | .emergency => false
      | .general => a.vulnerable
      | .priority => a.vulnerable
      | .unused => a.vulnerable
    u := u
    v := min a.v.toNat u
    hold := max 1 a.hold.toNat
    continuous := a.continuous }

/-- The rate entry that WRITE_RATES applies for a class of kind `k` (R136). -/
def clampRate (k : Kind) (m : Mode) (a : WriteRatesArgs) : RateEntry :=
  { weight := a.weight.toNat
    reload := a.reload.toNat
    trickle := min a.trickle.toNat a.reload.toNat
    mode := m
    mayWait := a.mayWait || k == .emergency
    waitLimit := max 1 a.waitLimit.toNat }

/-- The thresholds that WRITE_THRESHOLDS applies, clamped in the order of R138. -/
def clampThresholds (a : WriteThresholdsArgs) : Thresholds :=
  let u1 := clampTo 1 100 a.u1.toNat
  let u2 := max u1 (clampTo 1 100 a.u2.toNat)
  let u3 := max u2 (clampTo 1 100 a.u3.toNat)
  { u1 := u1, u2 := u2, u3 := u3
    d1 := min a.d1.toNat (u1 - 1), d2 := min a.d2.toNat (u2 - 1), d3 := min a.d3.toNat (u3 - 1) }

/-- The limits that WRITE_LIMITS applies (R139). -/
def clampLimits (a : WriteLimitsArgs) : Limits :=
  { floor := a.floor.toNat
    interval := clampTo 5 100 a.interval.toNat
    grace := max 1 a.grace.toNat
    stall := max 1 a.stall.toNat
    exhaust := a.exhaust.toNat }

/-- The window that WRITE_WINDOW applies; the bar mask is kept (R157). -/
def clampWindow (old : Window) (pr : ProfileId) (a : WriteWindowArgs) : Window :=
  { enabled := a.enabled
    start := a.start
    duration := clampTo 1 1440 a.duration.toNat
    daily := a.daily
    profile := pr
    minimum := min 3 a.minimum.toNat
    lock := a.lock
    bars := old.bars }

/-- The target that WRITE_CAPACITY applies (R11). -/
def clampTarget (t : Half) : Nat := clampTo Config.targetMin Config.targetMax t.toNat

/-- The bytes of a class entry: byte 6 packed, then u, v and hold (R188). -/
def classBytes (e : ClassEntry) : List Byte :=
  [byteOf (e.kind.code * 64 + e.level.val * 8) ||| flagsByte [e.preempt, e.vulnerable, e.continuous],
   byteOf e.u, byteOf e.v, byteOf e.hold]

/-- The bytes of a rate entry: w and m, then mode, may-wait and R, then the wait limit (R188). -/
def rateBytes (e : RateEntry) : List Byte :=
  [byteOf (e.weight * 16 + e.trickle)] ++
  numBytes2 (e.mode.code * 16384 + (if e.mayWait then 8192 else 0) + e.reload) ++ [byteOf e.waitLimit]

/-- The six values of the thresholds (R188). -/
def thresholdBytes (t : Thresholds) : List Byte :=
  [byteOf t.u1, byteOf t.u2, byteOf t.u3, byteOf t.d1, byteOf t.d2, byteOf t.d3]

/-- The five values of the limits (R188). -/
def limitBytes (l : Limits) : List Byte :=
  numBytes2 l.floor ++ [byteOf l.interval, byteOf l.grace, byteOf l.stall, byteOf l.exhaust]

/-- The timing of a window: enabled, daily, lock and the duration (R188). -/
def windowTimingBytes (w : Window) : List Byte :=
  numBytes2 ((if w.enabled then 32768 else 0) + (if w.daily then 16384 else 0) +
    (if w.lock then 8192 else 0) + w.duration)

end Sys2Proof.Machine
end

