-- ==== Sys2Proof/Machine/Flags.lean ====
section
/-! DEFINITION. Events, condition events, attention and the status summary (R170 to R177, R185, R186), and
the access to one port's state that they need. -/

namespace Sys2Proof.Machine

/-- One port with a change made to it. -/
def State.updPort (s : State) (p : Port) (f : PortState → PortState) : State :=
  { s with ports := s.ports.set p (f s.ports[p]) }

/-- Every port with a change made to it. -/
def State.updPorts (s : State) (f : Port → PortState → PortState) : State :=
  { s with ports := Vector.ofFn fun p => f p s.ports[p] }

/-- The number of an event, which is also its priority (section 9.3). -/
def Event.num : Event → Nat
  | .stalled => 0
  | .exhausted => 1
  | .notice => 2
  | .pressure => 3
  | .window => 4
  | .policy => 5
  | .classSpent => 6
  | .debtClear => 7
  | .time => 8

/-- The set that holds one event. -/
def Event.bit (e : Event) : EventSet := 1#9 <<< e.num

/-- A port whose PRST# is high latches an event; one whose PRST# is held does not (R171, R177). -/
def PortState.latch (ps : PortState) (e : Event) : PortState :=
  if ps.prstLow then ps else { ps with events := ps.events ||| e.bit }

/-- An edge event is raised at every port (R171). -/
def raiseAll (e : Event) (s : State) : State :=
  s.updPorts fun _ ps => ps.latch e

/-- An edge event is raised at every port but the requester's (R144, R147, R171). -/
def raiseOthers (p : Port) (e : Event) (s : State) : State :=
  s.updPorts fun q ps => if q = p then ps else ps.latch e

/-- STALLED enters: the event becomes pending where the arm flag is set, and that flag is cleared (R173). -/
def PortState.stalledEnters (ps : PortState) : PortState :=
  if ps.prstLow then ps
  else if ps.stalledArm then { ps with events := ps.events ||| Event.stalled.bit, stalledArm := false }
  else ps

/-- EXHAUSTED enters: the event becomes pending where the arm flag is set, and that flag is cleared (R173). -/
def PortState.exhaustedEnters (ps : PortState) : PortState :=
  if ps.prstLow then ps
  else if ps.exhaustedArm then { ps with events := ps.events ||| Event.exhausted.bit, exhaustedArm := false }
  else ps

/-- STALLED becomes entered or left, and the ports are told of a change (R83, R173). -/
def setStalled (now : Bool) (s : State) : State :=
  if now = s.wait.stalled then s
  else
    let s' := { s with wait.stalled := now }
    if now then s'.updPorts fun _ ps => ps.stalledEnters
    else s'.updPorts fun _ ps => { ps with stalledArm := true }

/-- EXHAUSTED becomes entered or left, and the ports are told of a change (R15, R173). -/
def setExhausted (now : Bool) (s : State) : State :=
  if now = s.pool.exhausted then s
  else
    let s' := { s with pool.exhausted := now }
    if now then s'.updPorts fun _ ps => ps.exhaustedEnters
    else s'.updPorts fun _ ps => { ps with exhaustedArm := true }

/-- The attention state of a port: an event is both pending and enabled (R176). -/
def PortState.attention (ps : PortState) : Bool := ps.events &&& ps.enables != 0

/-- ATTN# is driven low while the attention state is asserted, and released while PRST# is held or RESET# is
low (R176, R190, R191). -/
def attnAsserted (s : State) (p : Port) : Bool :=
  s.ports[p].attention && !s.ports[p].prstLow && !s.resetLow

/-- The lowest-numbered event that is pending and enabled, or 15 (R176). -/
def PortState.topEvent (ps : PortState) : Nat :=
  let both := ps.events &&& ps.enables
  ((List.range 9).find? fun n => both.getLsbD n).getD Config.noTopEvent

/-- The free-slot count: 4 less the requests in flight, without the one whose response the frame carries
(R185). -/
def PortState.freeSlots (ps : PortState) (carries : Bool) : Nat :=
  Config.inFlightLimit - (ps.inflight.length - (if carries then 1 else 0))

/-- The status summary that a port forms at the falling edge of CS# (R185, R186). -/
def summary (s : State) (p : Port) (carries : Bool) : Half :=
  let ps := s.ports[p]
  BitVec.ofNat 16
    ((if ps.attention then 32768 else 0) + ps.topEvent * 2048 + s.pacing.level * 512 +
      (if ps.reject then 256 else 0) + min Config.noticeCountMax ps.notices.length * 8 + ps.freeSlots carries)

end Sys2Proof.Machine
end

