-- ==== Sys2Proof/Machine/Ops.lean ====
section
/-! DEFINITION. The named operations over call records, the lists they stand in, and notices (chapters 2, 4, 5
and 9). Every block's events and requests are written over these. -/

namespace Sys2Proof.Machine

/-- The record with an id, absent while that id is FREE. -/
def findRec (rs : List (RecId × CallRecord)) (id : RecId) : Option CallRecord :=
  match rs with
  | [] => none
  | (k, r) :: rest => if k = id then some r else findRec rest id

/-- The records with `r` at `id`, by rising id. -/
def putRec (rs : List (RecId × CallRecord)) (id : RecId) (r : CallRecord) : List (RecId × CallRecord) :=
  match rs with
  | [] => [(id, r)]
  | (k, x) :: rest =>
    if id < k then (id, r) :: (k, x) :: rest
    else if id = k then (id, r) :: rest
    else (k, x) :: putRec rest id r

/-- The records without the one at `id`. -/
def eraseRec (rs : List (RecId × CallRecord)) (id : RecId) : List (RecId × CallRecord) :=
  match rs with
  | [] => []
  | (k, x) :: rest => if k = id then rest else (k, x) :: eraseRec rest id

/-- The lowest id from `k` on that stands in no entry of a list by rising id. -/
def lowestFreeFrom (k : RecId) (rs : List (RecId × CallRecord)) : RecId :=
  match rs with
  | [] => k
  | (i, _) :: rest => if i = k then lowestFreeFrom (k + 1) rest else k

/-- The record with an id, absent while the id is FREE. -/
def State.rec? (s : State) (id : RecId) : Option CallRecord := findRec s.table.records id

/-- The state with a record stored. -/
def State.setRec (s : State) (id : RecId) (r : CallRecord) : State :=
  { s with table.records := putRec s.table.records id r }

/-- The number of FREE records (R20). -/
def State.freeRecords (s : State) : Nat := Config.records - s.table.records.length

/-- The lowest-numbered FREE record (R20). -/
def State.lowestFree (s : State) : RecId := lowestFreeFrom 0 s.table.records

/-- The units that a state of a holding holds (R19). -/
def HoldState.units (h : HoldState) (u v : Nat) : Nat :=
  match h with
  | .setup _ => u
  | .sustain => v
  | .continuous => u

/-- The units that a record holds follow from its state (R19). -/
def CallRecord.unitsHeld (r : CallRecord) : Nat :=
  match r.state with
  | .holding h => h.units r.u r.v
  | .preemptPending h _ _ => h.units r.u r.v
  | .waiting _ => 0
  | .collecting _ _ _ => 0
  | .reclaimed => 0
  | .expired => 0

/-- The units that a record has collected (R1); only a COLLECTING record has any. -/
def CallRecord.unitsCollected (r : CallRecord) : Nat :=
  match r.state with
  | .collecting _ c _ => c
  | _ => 0

/-- A record is WAITING. -/
def CallRecord.isWaiting (r : CallRecord) : Bool :=
  match r.state with
  | .waiting _ => true
  | _ => false

/-- A record is COLLECTING. -/
def CallRecord.isCollecting (r : CallRecord) : Bool :=
  match r.state with
  | .collecting _ _ _ => true
  | _ => false

/-- A record is live: neither FREE, RECLAIMED nor EXPIRED (R23). -/
def CallRecord.isLive (r : CallRecord) : Bool :=
  match r.state with
  | .reclaimed => false
  | .expired => false
  | _ => true

/-- The final kinds of a notice (section 9.1). -/
def NoticeKind.final : NoticeKind → Bool
  | .reclaimed => true
  | .expired => true
  | .granted => false
  | .preempt => false
  | .reprieved => false

/-- An id joins the tail of a port's notice list, and NOTICE is pending (R166, R172). -/
def PortState.joinNotices (ps : PortState) (id : RecId) : PortState :=
  { ps with notices := ps.notices ++ [id], events := ps.events ||| Event.notice.bit }

/-- An id leaves a port's notice list; NOTICE is no longer pending when the list is empty then (R167, R172). -/
def PortState.leaveNotices (ps : PortState) (id : RecId) : PortState :=
  let rest := ps.notices.filter (· != id)
  { ps with
    notices := rest
    events := if rest.isEmpty then ps.events &&& ~~~Event.notice.bit else ps.events }

/-- A notice is posted to a record (R166): a record that is not in the list joins its tail, a kind that is not
final is replaced in place, and a final kind is kept. -/
def postNotice (id : RecId) (k : NoticeKind) (s : State) : State :=
  match s.rec? id with
  | none => s
  | some r =>
    match r.notice with
    | none => (s.setRec id { r with notice := some k }).updPort r.owner (·.joinNotices id)
    | some old => if old.final then s else s.setRec id { r with notice := some k }

/-- A record leaves the wait list: its level list and the arrival order (R66). -/
def leaveWait (id : RecId) (l : Level) (s : State) : State :=
  { s with
    wait.levels := s.wait.levels.set l (s.wait.levels[l].filter (· != id))
    wait.arrival := s.wait.arrival.filter (· != id)
    wait.count := s.wait.count - 1 }

/-- A record joins the wait list at the tails of its level list and of the arrival order (R65). -/
def joinWait (id : RecId) (l : Level) (s : State) : State :=
  { s with
    wait.levels := s.wait.levels.set l (s.wait.levels[l] ++ [id])
    wait.arrival := s.wait.arrival ++ [id]
    wait.count := s.wait.count + 1 }

/-- A record joins the tail of the holding order list (R24). -/
def joinHoldings (id : RecId) (s : State) : State :=
  { s with table.holdings := s.table.holdings ++ [id] }

/-- A record leaves the holding order list (R24). -/
def leaveHoldings (id : RecId) (s : State) : State :=
  { s with table.holdings := s.table.holdings.filter (· != id) }

/-- A victim leaves the victim list of its collector (R88). -/
def leaveVictims (victim collector : RecId) (s : State) : State :=
  match s.rec? collector with
  | none => s
  | some c =>
    match c.state with
    | .collecting w n vs => s.setRec collector { c with state := .collecting w n (vs.filter (· != victim)) }
    | _ => s

/-- The collector slot of a record becomes empty (R87). -/
def freeSlot (id : RecId) (s : State) : State :=
  { s with slots := Vector.ofFn fun i => if s.slots[i] = some id then none else s.slots[i] }

/-- The number of an empty collector slot, if there is one (R87). -/
def State.emptySlot? (s : State) : Option (Fin 8) :=
  (List.finRange 8).find? fun i => s.slots[i] == none

/-- A record occupies an empty collector slot (R87); which one has no effect on the behaviour. -/
def takeSlot (id : RecId) (s : State) : State :=
  match s.emptySlot? with
  | none => s
  | some i => { s with slots := s.slots.set i (some id) }

/-- The number of collector slots in use (R87). -/
def State.slotsInUse (s : State) : Nat := (s.slots.toList.filter (·.isSome)).length

/-- The record count of a class changes (R22). -/
def setClassCount (c : ClassId) (n : Nat) (s : State) : State :=
  { s with table.classCount := s.table.classCount.set c n }

/-- What leaves with a freed record, by the state it had: a waiting record leaves the wait list, a collector
its slot too, a holding the holding order list, and a victim the victim list of its collector (R25, R32). -/
def leaveLists (id : RecId) (r : CallRecord) (s : State) : State :=
  match r.state with
  | .waiting _ => leaveWait id r.level s
  | .collecting _ _ _ => freeSlot id (leaveWait id r.level s)
  | .holding _ => leaveHoldings id s
  | .preemptPending _ _ c => leaveVictims id c (leaveHoldings id s)
  | .reclaimed => s
  | .expired => s

/-- A record is freed (R25): it leaves every list, its class count falls by 1, it leaves its owner's notice
list, and the id is FREE. -/
def freeRecord (id : RecId) (s : State) : State :=
  match s.rec? id with
  | none => s
  | some r =>
    let s1 := leaveLists id r s
    let s2 := setClassCount r.cls (s1.table.classCount[r.cls] - 1) s1
    let s3 := if r.notice.isSome then s2.updPort r.owner (·.leaveNotices id) else s2
    { s3 with table.records := eraseRec s3.table.records id }

/-- The WAITING records in service order: the level lists from 0 to 7, each from its earliest entry (R64). -/
def waitingOrder (s : State) : List RecId :=
  (s.wait.levels.toList.flatten).filter fun id =>
    match s.rec? id with
    | none => false
    | some r => r.isWaiting

/-- The active profile's limits (R139). -/
def State.activeLimits (s : State) : Limits := s.policy.limits[s.time.activeProfile]

/-- The active profile's thresholds (R138). -/
def State.activeThresholds (s : State) : Thresholds := s.policy.thresholds[s.time.activeProfile]

/-- The active profile's rate entry of a class (section 7.3). -/
def State.activeRate (s : State) (c : ClassId) : RateEntry := s.policy.rates[s.time.activeProfile][c]

/-- The active window's fields, absent when no window is active (R162). -/
def State.windowInForce (s : State) : Option Window := s.time.activeWindow.map fun w => s.policy.windows[w]

/-- The active window has its lock flag set (R162). -/
def State.isLocked (s : State) : Bool := s.windowInForce.any (·.lock)

/-- A class stands in a set of classes. -/
def inClasses (m : ClassSet) (c : ClassId) : Bool := m.getLsbD c.val

/-- The classes of a set whose kind is not EMERGENCY (R147, R148). -/
def withoutEmergency (s : State) (m : ClassSet) : ClassSet :=
  (List.finRange 16).foldl
    (fun acc c => if s.policy.classes[c].kind = .emergency then acc &&& ~~~(1#16 <<< c.val) else acc) m

/-- The manual bar of a class (R47); a class of kind EMERGENCY has none (R146). -/
def State.manualBar (s : State) (c : ClassId) : Bool :=
  inClasses s.policy.bars c && s.policy.classes[c].kind != .emergency

/-- The window mask bars a class (R47, R162); it bars no EMERGENCY class (R146). -/
def State.windowBar (s : State) (c : ClassId) : Bool :=
  s.windowInForce.any (fun w => inClasses w.bars c) && s.policy.classes[c].kind != .emergency

/-- The three bar sources of a class, in the order manual, window, exhausted (R47, R188). -/
def State.barFlags (s : State) (c : ClassId) : List Bool :=
  [s.manualBar c, s.windowBar c, s.pacing.classes[c].exhausted]

/-- A class is barred when a source holds; an EMERGENCY class never is (R47, R146). -/
def State.isBarred (s : State) (c : ClassId) : Bool :=
  s.policy.classes[c].kind != .emergency && (s.barFlags c).any id

/-- What the Pacing Unit keeps for one class changes. -/
def State.updPacing (s : State) (c : ClassId) (f : ClassPacing → ClassPacing) : State :=
  { s with pacing.classes := s.pacing.classes.set c (f s.pacing.classes[c]) }

/-- The pressure level becomes `n`; PRESSURE is raised when that changes it (R121). -/
def setPressure (n : Nat) (s : State) : State :=
  if n = s.pacing.level then s else raiseAll .pressure { s with pacing.level := n }

end Sys2Proof.Machine
end

