-- ==== Sys2Proof/Machine/Engine.lean ====
section
/-! DEFINITION. Transactions, the arbiter, and the execution of a request as one step of the Admission Engine
(R180 to R185, R187, R189). -/

namespace Sys2Proof.Machine

/-- The frame of a response (R186). -/
def responseFrame (sum : Half) (r : Response) : Frame :=
  { b0 := hiByte sum, b1 := loByte sum, b2 := r.tag, b3 := r.result.code,
    b4 := r.data.d4, b5 := r.data.d5, b6 := r.data.d6, b7 := r.data.d7,
    b8 := r.data.d8, b9 := r.data.d9, b10 := r.data.d10, b11 := r.data.d11 }

/-- An EMPTY frame: summary, tag 0, result 00h and data 0 (R181). -/
def emptyFrame (sum : Half) : Frame := frameOf (hiByte sum) (loByte sum) []

/-- The response that the out-frame carries: that of the oldest request in flight, once it has been executed
(R181). -/
def PortState.headResponse? (ps : PortState) : Option Response :=
  match ps.inflight with
  | [] => none
  | q :: _ => if q.executed then ps.responses.head? else none

/-- The falling edge of CS# (R180, R181, R183). While PRST# or RESET# is low the transaction will be ignored
and MISO is high impedance (R190, R191), to the end of the transaction (DESIGN CHOICE, log 15). CS# that is already
low does not fall (log 3). -/
def startTransaction (p : Port) (s : State) : State :=
  let ps := s.ports[p]
  match ps.transaction with
  | some _ => s
  | none =>
    let t : Transaction :=
      if ps.prstLow || s.resetLow then { taken := false, out := none, carries := false, rejectShown := false }
      else
        match ps.headResponse? with
        | some r =>
          { taken := true, out := some (responseFrame (summary s p true) r), carries := true,
            rejectShown := ps.reject }
        | none =>
          { taken := true, out := some (emptyFrame (summary s p false)), carries := false,
            rejectShown := ps.reject }
    s.updPort p fun ps => { ps with transaction := some t }

/-- The delivery of a frame of 96 clocks: a response leaves its queue and its request the in-flight queue
(R181), and a REJECT that the summary showed is cleared (R183). -/
def PortState.deliver (ps : PortState) (t : Transaction) : PortState :=
  { ps with
    inflight := if t.carries then ps.inflight.tail else ps.inflight
    responses := if t.carries then ps.responses.tail else ps.responses
    reject := if t.rejectShown then false else ps.reject }

/-- The taking of an in-frame (R182): NULL is not counted; any other joins the in-flight queue when fewer than
4 requests are in flight, and is discarded with REJECT otherwise. -/
def PortState.receive (ps : PortState) (f : Frame) : PortState :=
  if f.b0 = 0 then ps
  else if ps.inflight.length < Config.inFlightLimit then
    { ps with inflight := ps.inflight ++ [{ frame := f, executed := false }] }
  else { ps with reject := true }

/-- The rising edge of CS# after a clock count (R181 to R183). A transaction that is not taken is ignored (R180).
CS# that is already high does not rise (log 3). -/
def PortState.endTransaction (ps : PortState) (clocks : Nat) (f : Frame) : PortState :=
  match ps.transaction with
  | none => ps
  | some t =>
    let ps := { ps with transaction := none }
    if !t.taken then ps
    else if clocks = Config.frameClocks then (ps.deliver t).receive f
    else { ps with reject := true }

/-- See `PortState.endTransaction`. -/
def endTransaction (p : Port) (clocks : Nat) (f : Frame) (s : State) : State :=
  s.updPort p fun ps => ps.endTransaction clocks f

/-- The engine can choose: RESET# is high (R191) and no port reset sequence is in progress (R38, R192). -/
def State.engineFree (s : State) : Bool :=
  !s.resetLow && (List.finRange 4).all fun p => s.ports[p].resetSeq.isNone

/-- The candidate request of a port: its oldest unexecuted request, while PRST# is high (R189). -/
def State.candidate? (s : State) (p : Port) : Option Frame :=
  if s.ports[p].prstLow then none
  else (s.ports[p].inflight.find? fun q => !q.executed).map (·.frame)

/-- An ADMIT of a class of kind EMERGENCY is urgent (R189). -/
def State.isUrgent (s : State) (f : Frame) : Bool :=
  match decodeRequest f with
  | .admitCall a =>
    match classOf? a.cls with
    | some c => s.policy.classes[c].kind = .emergency
    | none => false
  | _ => false

/-- The ports in the order pointer, pointer + 1, pointer + 2, pointer + 3, modulo 4 (R189). -/
def State.portOrder (s : State) : List Port :=
  [s.pointer, s.pointer + 1, s.pointer + 2, s.pointer + 3]

/-- The candidates in the arbiter's order (R189). -/
def State.candidatesInOrder (s : State) : List (Port × Frame) :=
  s.portOrder.filterMap fun p => (s.candidate? p).map fun f => (p, f)

/-- The arbiter's choice: the first urgent candidate in its order, else the first candidate (R189). -/
def arbiterChoice (s : State) : Option (Port × Frame) :=
  if s.engineFree then
    match s.candidatesInOrder.find? fun c => s.isUrgent c.2 with
    | some c => some c
    | none => s.candidatesInOrder.head?
  else none

/-- A frame spells this request with this tag. -/
def spells (f : Frame) (tag : Byte) (q : Request) : Bool := f.b1 == tag && decodeRequest f == q

/-- The engine takes port `p`'s request `q` when it is the arbiter's choice, and the pointer moves past the port
(R189). -/
def claim (p : Port) (tag : Byte) (q : Request) (s : State) : Option State :=
  match arbiterChoice s with
  | none => none
  | some (r, f) => if r = p ∧ spells f tag q = true then some { s with pointer := p + 1 } else none

/-- A whole transaction of 96 clocks that shifts in a frame (R180 to R183). -/
def transact (p : Port) (f : Frame) (s : State) : State :=
  endTransaction p Config.frameClocks f (startTransaction p s)

/-- The engine's step on a request command (log 1). While a request waits at some port, the step is the arbiter's
choice, and it takes place only when that choice is this request (R189). While none waits, the port hands the
request in by one transaction of 96 clocks, and it is chosen at once (R189). -/
def engineTake (p : Port) (tag : Byte) (q : Request) (s : State) : Option State :=
  match arbiterChoice s with
  | some _ => claim p tag q s
  | none =>
    if s.ports[p].transaction.isNone then claim p tag q (transact p (encodeRequest tag q) s) else none

/-- The oldest unexecuted request of a queue counts as executed (R184). -/
def markExecuted : List InFlight → List InFlight
  | [] => []
  | q :: rest => if q.executed then q :: markExecuted rest else { q with executed := true } :: rest

/-- The tag of the oldest unexecuted request of a queue (R184). -/
def currentTag : List InFlight → Byte
  | [] => 0
  | q :: rest => if q.executed then currentTag rest else q.frame.b1

/-- The response of an execution joins the tail of the port's response queue, with the tag of the request
(R184, R189). -/
def PortState.answer (ps : PortState) (r : ResultCode) (d : Data) : PortState :=
  { ps with
    inflight := markExecuted ps.inflight
    responses := ps.responses ++ [{ tag := currentTag ps.inflight, result := r, data := d }] }

/-- What an execution leaves: the state, the result and the response data (R184). -/
structure Executed where
  state : State
  result : ResultCode
  data : Data
  deriving DecidableEq, Repr

/-- A request command: the engine's choice, the execution `run`, and the response, as one step (R42, R189). When
the engine does not take this request now, nothing happens (log 3). -/
def runRequest (p : Port) (tag : Byte) (q : Request) (run : State → Executed) (s : State) :
    Host.Outcome State Fault Refusal :=
  match engineTake p tag q s with
  | none => .next s
  | some s1 =>
    let e := run s1
    .next (e.state.updPort p fun ps => ps.answer e.result e.data)

/-- A request that is refused or that only reads leaves the state as it is (R58, R143). -/
def unchanged (s : State) (r : ResultCode) (bytes : List Byte) : Executed := ⟨s, r, dataOf bytes⟩

/-- BAD_REQUEST with the number of the first argument byte out of range, or 0 for an unknown code (R187). -/
def badRequest (s : State) (byte : Nat) : Executed := unchanged s .badRequest [byteOf byte]

/-- An answer with its effect on the state. -/
def answered (s : State) (r : ResultCode) (bytes : List Byte) : Executed := ⟨s, r, dataOf bytes⟩

end Sys2Proof.Machine
end

