-- ==== Sys2Proof/Machine/Pool.lean ====
section
/-! DEFINITION. The trunk pool and what a return sets going: the unit test and the effective floor (R4, R5),
Wait List service (R67 to R70), completion and reprieve (R100, R102), the unit return distribution (R6 to
R10), and the EXHAUSTED condition (R15). -/

namespace Sys2Proof.Machine

/-- The capacity debt D = C - T (section 1.1). -/
def Pool.debt (p : Pool) : Nat := p.capacity - p.target

/-- The unit test for a record of need `n` (R4). -/
def fits (k : Kind) (n : Nat) (p : Pool) : Bool :=
  match k with
  | .general => n + p.feff ≤ p.free
  | .emergency => n ≤ p.free
  | .priority => n ≤ p.free
  | .unused => n ≤ p.free

/-- The pool evaluates EXHAUSTED with the hysteresis of R15. -/
def evalExhausted (s : State) : State :=
  let x := s.activeLimits.exhaust
  let now := if s.pool.exhausted then decide (s.pool.free < 2 * x) else decide (s.pool.free < x)
  setExhausted now s

/-- The effective floor for a capacity and a floor F: the smaller of F and half of C (R4). -/
def floorOf (f c : Nat) : Nat := min f (c / 2)

/-- The state of a record that becomes a holding: CONTINUOUS if its continuous snapshot is set, else SETUP with
its setup timer started at hold × 100 ticks (R27, R52, R69, R100). -/
def CallRecord.holdingState (r : CallRecord) : RecState :=
  .holding (if r.continuous then .continuous else .setup (r.hold * Config.ticksPerSecond))

/-- A waiting record or a collector becomes a holding: it leaves the wait list, enters its holding state and
joins the tail of the holding order list (R69, R100). -/
def becomeHolding (id : RecId) (r : CallRecord) (s : State) : State :=
  joinHoldings id ((leaveWait id r.level s).setRec id { r with state := r.holdingState })

/-- A grant by Wait List service (R69). -/
def grant (id : RecId) (s : State) : State :=
  match s.rec? id with
  | none => s
  | some r =>
    match r.state with
    | .waiting w =>
      postNotice id .granted (becomeHolding id r { s with pool.free := s.pool.free - w.need })
    | _ => s

/-- A WAITING record passes the unit test now (R68). -/
def servable (id : RecId) (s : State) : Bool :=
  match s.rec? id with
  | none => false
  | some r =>
    match r.state with
    | .waiting w => fits r.kind w.need s.pool
    | _ => false

/-- Service takes the waiting records of a list in order and stops at the first that does not fit (R68). -/
def serveList (ids : List RecId) (s : State) : State :=
  match ids with
  | [] => s
  | id :: rest => if servable id s then serveList rest (grant id s) else s

/-- A service run, when free is greater than 0 as it would begin (R67, R68). A grant takes the first waiting
record out of service order and leaves the others in place, so the run goes through that order once. -/
def service (s : State) : State :=
  if 0 < s.pool.free then serveList (waitingOrder s) s else s

/-- Feff is recomputed. When it falls and free is greater than 0 the Wait List serves (R5). -/
def refloor (s : State) : State :=
  let new := floorOf s.activeLimits.floor s.pool.capacity
  let s' := { s with pool.feff := new }
  if new < s.pool.feff then service s' else s'

/-- One victim returns to its prior state with a REPRIEVED notice (R102). -/
def reprieve (id : RecId) (s : State) : State :=
  match s.rec? id with
  | none => s
  | some r =>
    match r.state with
    | .preemptPending prior _ _ => postNotice id .reprieved (s.setRec id { r with state := .holding prior })
    | _ => s

/-- Every victim of a list is reprieved, in victim-list order (R103). -/
def reprieveAll (ids : List RecId) (s : State) : State :=
  match ids with
  | [] => s
  | id :: rest => reprieveAll rest (reprieve id s)

/-- Completion of a collector, in the order of R100. -/
def complete (id : RecId) (s : State) : State :=
  match s.rec? id with
  | none => s
  | some r =>
    match r.state with
    | .collecting w _ victims =>
      let s1 := { s with pool.collected := s.pool.collected - w.need }
      let s2 := becomeHolding id r (freeSlot id s1)
      reprieveAll victims (postNotice id .granted s2)
    | _ => s

/-- `n` returned units are offered to a collector up to its remaining need; it is completed when its need is
met (R7, R8). The result is the state and the units that are left. -/
def giveTo (id : RecId) (n : Nat) (s : State) : State × Nat :=
  match s.rec? id with
  | none => (s, n)
  | some r =>
    match r.state with
    | .collecting w collected victims =>
      let g := min n (w.need - collected)
      let s1 := { s with pool.collected := s.pool.collected + g }.setRec id
        { r with state := .collecting w (collected + g) victims }
      (if collected + g = w.need then complete id s1 else s1, n - g)
    | _ => (s, n)

/-- Step 2 of the distribution: the collectors of a list in order, while units remain (R8). -/
def giveList (ids : List RecId) (n : Nat) (s : State) : State × Nat :=
  match ids with
  | [] => (s, n)
  | id :: rest =>
    if n = 0 then (s, n)
    else
      let (s', m) := giveTo id n s
      giveList rest m s'

/-- Step 1 of the distribution: the returning victim's own collector (R7). -/
def giveFirst (collector : Option RecId) (n : Nat) (s : State) : State × Nat :=
  match collector with
  | none => (s, n)
  | some c => giveTo c n s

/-- Step 3 of the distribution: units are retired against the debt; DEBT_CLEAR is raised when that brings the
debt to 0, and Feff follows C (R5, R9). -/
def retireDebt (n : Nat) (s : State) : State × Nat :=
  let d := s.pool.debt
  let r := min n d
  if r = 0 then (s, n)
  else
    let c := s.pool.capacity - r
    let s1 := { s with pool.capacity := c, pool.feff := floorOf s.activeLimits.floor c }
    (if r = d then raiseAll .debtClear s1 else s1, n - r)

/-- The unit return distribution: steps 1 to 4, service, and one evaluation of EXHAUSTED (R6 to R10). -/
def distribute (collector : Option RecId) (n : Nat) (s : State) : State :=
  let (s1, n1) := giveFirst collector n s
  let (s2, n2) := giveList s1.wait.arrival n1 s1
  let (s3, n3) := retireDebt n2 s2
  evalExhausted (service { s3 with pool.free := s3.pool.free + n3 })

/-- A collection ends without completion: the record leaves the wait list and COLLECTING, its slot is empty,
the collected total falls, and the victims still PREEMPT_PENDING are reprieved (R73, R76). The record stands as
EXPIRED from here on; a CANCEL frees it next. -/
def endCollecting (id : RecId) (r : CallRecord) (collected : Nat) (victims : List RecId) (s : State) : State :=
  let s1 := { s with pool.collected := s.pool.collected - collected }
  let s2 := (freeSlot id (leaveWait id r.level s1)).setRec id { r with state := .expired }
  reprieveAll victims s2

/-- A record that holds or pends is released: it is freed, and its units come back, for a victim first to its
collector (R31, R32, R39). Other records are left alone. -/
def releaseRecord (id : RecId) (r : CallRecord) (s : State) : State :=
  match r.state with
  | .holding _ => distribute none r.unitsHeld (freeRecord id s)
  | .preemptPending _ _ c => distribute (some c) r.unitsHeld (freeRecord id s)
  | _ => s

/-- A record in the wait list is withdrawn (R39, R75, R76). Other records are left alone. -/
def withdrawRecord (id : RecId) (r : CallRecord) (s : State) : State :=
  match r.state with
  | .waiting _ => freeRecord id s
  | .collecting _ collected victims =>
    distribute none collected (freeRecord id (endCollecting id r collected victims s))
  | _ => s

/-- The setup hold of a record ends: SETUP becomes SUSTAIN, a victim's prior state SETUP becomes SUSTAIN, and
u − v units come back, for a victim first to its collector (R28, R29, R35). -/
def endSetup (id : RecId) (r : CallRecord) (s : State) : State :=
  match r.state with
  | .holding (.setup _) =>
    distribute none (r.u - r.v) (s.setRec id { r with state := .holding .sustain })
  | .preemptPending (.setup _) g c =>
    distribute (some c) (r.u - r.v) (s.setRec id { r with state := .preemptPending .sustain g c })
  | _ => s

end Sys2Proof.Machine
end

