-- ==== Sys2Proof/Machine/Preemption.lean ====
section
/-! DEFINITION. The Pre-emption Unit: victim selection (R91 to R94) and the making of a collector (R95, R96). -/

namespace Sys2Proof.Machine

/-- A record is a candidate for a requester of level `l` (R92). -/
def CallRecord.isCandidate (r : CallRecord) (l : Level) : Bool :=
  (match r.state with
    | .holding _ => true
    | _ => false) &&
  r.vulnerable && decide (l < r.level) && decide (0 < r.unitsHeld)

/-- The candidates of one level with their units, newest holding first (R93). -/
def candidatesAt (s : State) (l lev : Level) : List (RecId × Nat) :=
  s.table.holdings.reverse.filterMap fun id =>
    match s.rec? id with
    | none => none
    | some r => if r.level = lev ∧ r.isCandidate l = true then some (id, r.unitsHeld) else none

/-- All candidates in the order of selection: level 7 first, down to the level after the requester's (R93). -/
def candidates (s : State) (l : Level) : List (RecId × Nat) :=
  (List.finRange 8).reverse.flatMap fun lev => candidatesAt s l lev

/-- The walk of selection from a running sum: candidates are taken while the sum is below the need and fewer
than `room` more have been taken (R93). -/
def takeVictims (cands : List (RecId × Nat)) (sum need room : Nat) : Option (List RecId) :=
  if need ≤ sum then some []
  else
    match cands, room with
    | [], _ => none
    | _ :: _, 0 => none
    | (id, units) :: rest, m + 1 => (takeVictims rest (sum + units) need m).map (id :: ·)

/-- Victim selection for a requester of level `l` and need `n`: it fails when no slot is empty (R91). -/
def selectVictims (s : State) (l : Level) (n : Nat) : Option (List RecId) :=
  match s.emptySlot? with
  | none => none
  | some _ => takeVictims (candidates s l) s.pool.free n Config.victimLimit

/-- A holding becomes a victim of a collector, with the grace of the active profile (R96). -/
def makeVictim (collector id : RecId) (s : State) : State :=
  match s.rec? id with
  | none => s
  | some r =>
    match r.state with
    | .holding h =>
      postNotice id .preempt
        (s.setRec id { r with state := .preemptPending h s.activeLimits.grace collector })
    | _ => s

/-- The selected records become victims, in selection order (R95). -/
def makeVictims (collector : RecId) (ids : List RecId) (s : State) : State :=
  match ids with
  | [] => s
  | id :: rest => makeVictims collector rest (makeVictim collector id s)

/-- A requester becomes a collector, in the order of R95. `r` is its record and `w` its wait-list fields; it
takes every free unit (R3). -/
def makeCollector (id : RecId) (r : CallRecord) (w : WaitFields) (victims : List RecId) (s : State) : State :=
  let taken := s.pool.free
  let s1 := takeSlot id (s.setRec id { r with state := .collecting w taken victims })
  let s2 := { s1 with pool.free := 0, pool.collected := s1.pool.collected + taken }
  evalExhausted (makeVictims id victims s2)

end Sys2Proof.Machine
end

