-- ==== Sys2Proof/Machine/Admission.lean ====
section
/-! DEFINITION. ADMIT (chapter 3). -/

namespace Sys2Proof.Machine

/-- The live record of a port with a call reference, if there is one (R23). -/
def liveRecord? (p : Port) (ref : Half) (rs : List (RecId × CallRecord)) : Option RecId :=
  (rs.find? fun e => e.2.owner = p ∧ e.2.ref = ref ∧ e.2.isLive = true).map (·.1)

/-- An arrival of a level is blocked by a WAITING record of the same or a more urgent level (R51). -/
def State.isBlocked (s : State) (l : Level) : Bool :=
  s.table.records.any fun e => e.2.isWaiting && decide (e.2.level ≤ l)

/-- The record availability test of R20. -/
def State.hasRecordFor (s : State) (k : Kind) : Bool :=
  match k with
  | .general => Config.recordFloor < s.freeRecords
  | .emergency => 0 < s.freeRecords
  | .priority => 0 < s.freeRecords
  | .unused => 0 < s.freeRecords

/-- The record that an allocation makes: owner, call reference and class of the ADMIT, and the snapshot of the
class entry (R21). -/
def newRecord (p : Port) (ref : Half) (c : ClassId) (e : ClassEntry) (st : RecState) : CallRecord :=
  { owner := p, ref := ref, cls := c, kind := e.kind, level := e.level, vulnerable := e.vulnerable,
    continuous := e.continuous, u := e.u, v := e.v, hold := e.hold, state := st, notice := none }

/-- The wait-list fields of a new record (R21, R65). -/
def newWait (s : State) (c : ClassId) (need : Nat) : WaitFields :=
  let limit := (s.activeRate c).waitLimit
  { waitLimit := limit, need := need, deadline := limit * Config.ticksPerStep, waited := 0 }

/-- The lowest-numbered FREE record is allocated, and the count of its class rises by 1 (R20, R22). -/
def allocate (id : RecId) (r : CallRecord) (s : State) : State :=
  setClassCount r.cls (s.table.classCount[r.cls] + 1) (s.setRec id r)

/-- The attempt count of a class rises by 1 and saturates (R45). -/
def countAttempt (c : ClassId) (s : State) : State :=
  s.updPacing c fun k => { k with attempts := min Config.attemptMax (k.attempts + 1) }

/-- A GENERAL ADMIT consumes one unit of allowance. A ONESHOT class whose last unit goes gets its exhausted
flag, and CLASS_SPENT is raised at every port (R49, R117). Other kinds consume nothing. -/
def consume (c : ClassId) (k : Kind) (s : State) : State :=
  if k ≠ .general then s
  else
    let a := s.pacing.classes[c].allowance
    let s1 := s.updPacing c fun x => { x with allowance := a - 1 }
    if (s.activeRate c).mode = .oneshot ∧ a = 1 then
      raiseAll .classSpent (s1.updPacing c fun x => { x with exhausted := true })
    else s1

/-- Direct admission (R52): the record, its units from free, its setup timer, its place among the holdings, the
allowance and EXHAUSTED. -/
def admitDirectly (p : Port) (ref : Half) (c : ClassId) (e : ClassEntry) (s : State) : Executed :=
  let id := s.lowestFree
  let r := newRecord p ref c e (.holding .sustain)
  let s1 := joinHoldings id (allocate id { r with state := r.holdingState } s)
  let s2 := consume c e.kind { s1 with pool.free := s1.pool.free - e.u }
  let s3 := evalExhausted s2
  let a := if e.kind = .general then s3.pacing.classes[c].allowance else 0
  answered s3 .admitted
    (numBytes2 id ++ [byteOf r.holdingState.code, byteOf e.u] ++ numBytes2 a)

/-- Pre-emption started by an ADMIT (R54, R95). -/
def admitCollecting (p : Port) (ref : Half) (c : ClassId) (e : ClassEntry) (victims : List RecId)
    (s : State) : Executed :=
  let id := s.lowestFree
  let w := newWait s c e.u
  let r := newRecord p ref c e (.waiting w)
  let s1 := makeCollector id r w victims (joinWait id e.level (allocate id r s))
  answered s1 .collecting
    (numBytes2 id ++ [byteOf w.need, byteOf s.pool.free, byteOf victims.length] ++ numBytes2 w.deadline)

/-- The WAITING records before a record that has just joined at level `l`: those at more urgent levels, and the
others at its own (R59). -/
def recordsAhead (id : RecId) (l : Level) (s : State) : Nat :=
  ((waitingOrder s).filter fun i =>
    i != id && (match s.rec? i with
      | none => false
      | some r => decide (r.level ≤ l))).length

/-- Entering the wait list (R56). -/
def admitWaiting (p : Port) (ref : Half) (c : ClassId) (e : ClassEntry) (s : State) : Executed :=
  let id := s.lowestFree
  let w := newWait s c e.u
  let s1 := consume c e.kind (joinWait id e.level (allocate id (newRecord p ref c e (.waiting w)) s))
  answered s1 .waiting
    (numBytes2 id ++ [byteOf w.need] ++ numBytes2 w.deadline ++ [byteOf (recordsAhead id e.level s1)])

/-- An arrival whose class may start a pre-emption (R53, condition 1). -/
def ClassEntry.isCapable (e : ClassEntry) : Bool :=
  match e.kind with
  | .emergency => true
  | .priority => e.preempt
  | .general => false
  | .unused => false

/-- Steps 9 and 10 of an ADMIT (R55 to R57). The blocked flag of CONGESTED takes a byte alone (DEDUCED, log 8). -/
def admitWaitOrRefuse (p : Port) (a : AdmitArgs) (c : ClassId) (e : ClassEntry) (blocked : Bool)
    (s : State) : Executed :=
  let mayWait := (s.activeRate c).mayWait
  if mayWait = true ∧ a.nowait = false ∧ s.wait.count < Config.waitPlaces then admitWaiting p a.ref c e s
  else if mayWait = true ∧ a.nowait = false then unchanged s .listFull [byteOf s.wait.count]
  else unchanged s .congested (numBytes2 s.pool.free ++ [flagsByte [blocked]])

/-- The victims of the arrival, when pre-emption is allowed and selection succeeds (R53). -/
def admitVictims (e : ClassEntry) (blocked : Bool) (s : State) : Option (List RecId) :=
  if e.isCapable = true ∧ blocked = false ∧ s.wait.count < Config.waitPlaces then
    selectVictims s e.level e.u
  else none

/-- Steps 7 to 10 of an ADMIT (R43, R51 to R57). -/
def admitPlace (p : Port) (a : AdmitArgs) (c : ClassId) (e : ClassEntry) (s : State) : Executed :=
  let blocked := s.isBlocked e.level
  if blocked = false ∧ fits e.kind e.u s.pool = true then admitDirectly p a.ref c e s
  else
    match admitVictims e blocked s with
    | some victims => admitCollecting p a.ref c e victims s
    | none => admitWaitOrRefuse p a c e blocked s

/-- Steps 3 to 10 of an ADMIT, after its attempt has been counted (R43, R46 to R50). The FREE records of TABLE_FULL take
two bytes (DEDUCED, log 8). -/
def admitChecked (p : Port) (a : AdmitArgs) (c : ClassId) (e : ClassEntry) (s : State) : Executed :=
  match liveRecord? p a.ref s.table.records with
  | some id => unchanged s .duplicate (numBytes2 id)
  | none =>
    if s.isBarred c then unchanged s .barred [flagsByte (s.barFlags c)]
    else if e.kind = .general ∧ s.pacing.classes[c].allowance = 0 then
      unchanged s .paced [byteOf s.pacing.countdown]
    else if s.hasRecordFor e.kind = false then unchanged s .tableFull (numBytes2 s.freeRecords)
    else admitPlace p a c e s

/-- The execution of an ADMIT (R41, R43 to R45). -/
def runAdmit (p : Port) (a : AdmitArgs) (s : State) : Executed :=
  match classOf? a.cls with
  | none => badRequest s 4
  | some c =>
    let e := s.policy.classes[c]
    if e.kind = .unused then unchanged s .unusedClass []
    else admitChecked p a c e (countAttempt c s)

/-- ADMIT (R43). -/
def execAdmit (p : Port) (tag : Byte) (a : AdmitArgs) (s : State) : Host.Outcome State Fault Refusal :=
  runRequest p tag (.admitCall a) (runAdmit p a) s

end Sys2Proof.Machine
end

