-- ==== Sys2Proof/Machine/CallRequests.lean ====
section
/-! DEFINITION. RELEASE, CANCEL, SETTLE and QUERY (sections 2.7, 2.8 and 4.5). -/

namespace Sys2Proof.Machine

/-- Checks 1 and 2 of R30 for a record request, after the range of its id (R187). -/
inductive Named where
  | refused (e : Executed)
  | found (id : RecId) (r : CallRecord)

/-- The record that a RELEASE, SETTLE or CANCEL names, or the refusal of checks 1 and 2 (R30). -/
def named (p : Port) (a : RecordArgs) (s : State) : Named :=
  match recordOf? a.id with
  | none => .refused (badRequest s 2)
  | some id =>
    match s.rec? id with
    | none => .refused (unchanged s .notFound [])
    | some r =>
      if r.ref ≠ a.ref then .refused (unchanged s .notFound [])
      else if r.owner ≠ p then .refused (unchanged s .notOwner [])
      else .found id r

/-- Response data of RELEASE and CANCEL: the record id and the units returned (R31, R75). -/
def returnedBytes (id : RecId) (units : Nat) : List Byte := numBytes2 id ++ [byteOf units]

/-- RELEASE of the record named (R31, R32, R34). -/
def releaseFound (id : RecId) (r : CallRecord) (s : State) : Executed :=
  match r.state with
  | .holding _ => answered (releaseRecord id r s) .done (returnedBytes id r.unitsHeld)
  | .preemptPending _ _ _ => answered (releaseRecord id r s) .done (returnedBytes id r.unitsHeld)
  | .reclaimed => answered (freeRecord id s) .late (returnedBytes id 0)
  | .waiting _ => unchanged s .wrongState []
  | .collecting _ _ _ => unchanged s .wrongState []
  | .expired => unchanged s .wrongState []

/-- The execution of a RELEASE (R30 to R34). -/
def runRelease (p : Port) (a : RecordArgs) (s : State) : Executed :=
  match named p a s with
  | .refused e => e
  | .found id r => releaseFound id r s

/-- RELEASE (R31). -/
def execRelease (p : Port) (tag : Byte) (a : RecordArgs) (s : State) : Host.Outcome State Fault Refusal :=
  runRequest p tag (.release a) (runRelease p a) s

/-- CANCEL of the record named (R75 to R77). -/
def cancelFound (id : RecId) (r : CallRecord) (s : State) : Executed :=
  match r.state with
  | .waiting _ => answered (withdrawRecord id r s) .done (returnedBytes id 0)
  | .collecting _ collected _ => answered (withdrawRecord id r s) .done (returnedBytes id collected)
  | .expired => answered (freeRecord id s) .late (returnedBytes id 0)
  | .holding _ => unchanged s .wrongState []
  | .preemptPending _ _ _ => unchanged s .wrongState []
  | .reclaimed => unchanged s .wrongState []

/-- The execution of a CANCEL (R30, R75 to R77). -/
def runCancel (p : Port) (a : RecordArgs) (s : State) : Executed :=
  match named p a s with
  | .refused e => e
  | .found id r => cancelFound id r s

/-- CANCEL (R75). -/
def execCancel (p : Port) (tag : Byte) (a : RecordArgs) (s : State) : Host.Outcome State Fault Refusal :=
  runRequest p tag (.cancel a) (runCancel p a) s

/-- SETTLE of the record named (R35). The units held after it are v; u − v come back. -/
def settleFound (id : RecId) (r : CallRecord) (s : State) : Executed :=
  let settled := answered (endSetup id r s) .done (numBytes2 id ++ [byteOf r.v, byteOf (r.u - r.v)])
  match r.state with
  | .holding (.setup _) => settled
  | .preemptPending (.setup _) _ _ => settled
  | _ => unchanged s .wrongState []

/-- The execution of a SETTLE (R30, R35). -/
def runSettle (p : Port) (a : RecordArgs) (s : State) : Executed :=
  match named p a s with
  | .refused e => e
  | .found id r => settleFound id r s

/-- SETTLE (R35). -/
def execSettle (p : Port) (tag : Byte) (a : RecordArgs) (s : State) : Host.Outcome State Fault Refusal :=
  runRequest p tag (.settle a) (runSettle p a) s

/-- The timer that QUERY reports (R37). -/
def CallRecord.timerRemaining (r : CallRecord) : Nat :=
  match r.state with
  | .holding (.setup n) => n
  | .holding .sustain => 0
  | .holding .continuous => 0
  | .preemptPending _ g _ => g
  | .waiting w => w.deadline
  | .collecting w _ _ => w.deadline
  | .reclaimed => 0
  | .expired => 0

/-- The related value that QUERY reports (R37). -/
def CallRecord.relatedValue (r : CallRecord) : Nat :=
  match r.state with
  | .preemptPending _ _ c => c
  | .collecting _ n _ => n
  | .waiting w => w.need
  | .holding _ => 0
  | .reclaimed => 0
  | .expired => 0

/-- The prior state that QUERY reports, 0 for none (R37). -/
def CallRecord.priorCode (r : CallRecord) : Nat :=
  match r.state with
  | .preemptPending h _ _ => h.priorCode
  | _ => 0

/-- The response data of a QUERY, packed as R188 gives it. -/
def queryBytes (r : CallRecord) : List Byte :=
  [byteOf (r.state.code * 16 + r.priorCode * 4 + r.owner.val),
   byteOf (r.cls.val * 16 + r.relatedValue / 256 % 4)] ++
  bytes2 r.ref ++ [byteOf r.unitsHeld] ++ numBytes2 r.timerRemaining ++ [byteOf r.relatedValue]

/-- The execution of a QUERY (R37). A FREE record reads as all 0. -/
def runQuery (h : Half) (s : State) : Executed :=
  match recordOf? h with
  | none => badRequest s 2
  | some id =>
    match s.rec? id with
    | none => unchanged s .done []
    | some r => unchanged s .done (queryBytes r)

/-- QUERY (R37). -/
def execQuery (p : Port) (tag : Byte) (id : Half) (s : State) : Host.Outcome State Fault Refusal :=
  runRequest p tag (.query id) (runQuery id) s

end Sys2Proof.Machine
end

