-- ==== Sys2Proof/Machine/Capacity.lean ====
section
/-! DEFINITION. WRITE_CAPACITY (R11 to R14). -/

namespace Sys2Proof.Machine

/-- A target at or above C: C and T become the target, Feff follows, and the units by which C rose enter the
distribution as one return with no returning record (R5, R12). -/
def raiseCapacity (t : Nat) (s : State) : State :=
  let n := t - s.pool.capacity
  distribute none n (refloor { s with pool.capacity := t, pool.target := t })

/-- A target below C: free units are retired at once, and the rest of C - T is debt; Feff follows with service
when it falls (R5, R13, R14). -/
def cutCapacity (t : Nat) (s : State) : State :=
  let n := min s.pool.free (s.pool.capacity - t)
  refloor { s with
    pool.target := t
    pool.capacity := s.pool.capacity - n
    pool.free := s.pool.free - n }

/-- The capacity target is written, and EXHAUSTED evaluated at the end (R11, R15). -/
def writeTarget (t : Nat) (s : State) : State :=
  evalExhausted (if s.pool.capacity ≤ t then raiseCapacity t s else cutCapacity t s)

/-- The execution of a WRITE_CAPACITY (R11). -/
def runWriteCapacity (target : Half) (s : State) : Executed :=
  let s1 := writeTarget (clampTarget target) s
  answered s1 .done
    (numBytes2 s1.pool.capacity ++ numBytes2 s1.pool.target ++ numBytes2 s1.pool.free ++ numBytes2 s1.pool.debt)

/-- WRITE_CAPACITY (R11). -/
def execWriteCapacity (p : Port) (tag : Byte) (target : Half) (s : State) :
    Host.Outcome State Fault Refusal :=
  runRequest p tag (.writeCapacity target) (runWriteCapacity target) s

end Sys2Proof.Machine
end

