-- ==== Sys2Proof/Machine/Windows.lean ====
section
/-! DEFINITION. The active profile and the active window (R120, R121, R159 to R162). -/

namespace Sys2Proof.Machine

/-- What a change of the active profile does to a class: its allowance is clamped to the new R, and its
exhausted flag is cleared when it leaves ONESHOT (R120). -/
def ClassPacing.onProfile (c : ClassPacing) (old new : RateEntry) : ClassPacing :=
  { c with
    allowance := min c.allowance new.reload
    exhausted :=
      if old.mode = .oneshot ∧ new.mode ≠ .oneshot then false else c.exhausted }

/-- The active profile becomes `p`. A change clamps the allowances (R120), recomputes Feff with service (R5)
and evaluates EXHAUSTED (R15); the same profile changes nothing (R141, R161). -/
def setActiveProfile (p : ProfileId) (s : State) : State :=
  if p = s.time.activeProfile then s
  else
    let classes := Vector.ofFn fun c =>
      s.pacing.classes[c].onProfile s.policy.rates[s.time.activeProfile][c] s.policy.rates[p][c]
    evalExhausted (refloor { s with time.activeProfile := p, pacing.classes := classes })

/-- Window `w` contains now (R159). The end of a one-off window is formed without wrap. -/
def Window.containsNow (w : Window) (t : TimeBase) : Bool :=
  let now := t.seconds.toNat
  let start := w.start.toNat
  w.enabled && t.state == .running &&
    (if w.daily then decide (start ≤ now ∧ (now - start) % 86400 < w.duration * 60)
     else decide (start ≤ now ∧ now < start + w.duration * 60))

/-- The lowest-numbered window that contains now (R160). -/
def windowNow (s : State) : Option WindowId :=
  (List.finRange 8).find? fun i => s.policy.windows[i].containsNow s.time

/-- The profile that a choice of the active window brings: the window's, or the base profile (R132, R161). -/
def profileOfWindow (s : State) (w : Option WindowId) : ProfileId :=
  match w with
  | none => s.policy.base
  | some i => s.policy.windows[i].profile

/-- The pressure level is raised to the minimum of the active window if it is below it (R121). -/
def raiseToMinimum (s : State) : State :=
  match s.windowInForce with
  | none => s
  | some w => setPressure (max s.pacing.level w.minimum) s

/-- The unit evaluates the active window (R160). A change raises WINDOW; the profile and the minimum of the
window now active are applied, also when only its fields were rewritten (R161, R162). -/
def evalWindow (s : State) : State :=
  let new := windowNow s
  let s1 := if new = s.time.activeWindow then s
    else raiseAll .window { s with time.activeWindow := new }
  raiseToMinimum (setActiveProfile (profileOfWindow s1 new) s1)

end Sys2Proof.Machine
end

