-- ==== Sys2Proof/Machine/PolicyWrites.lean ====
section
/-! DEFINITION. The policy image (chapter 7): the guarded writes, BAR_SET, BAR_CLEAR, REARM and READ_POLICY. -/

namespace Sys2Proof.Machine

/-- Checks 2 and 3 of a guarded write: the lock, then the generation (R143). The answer when one fails, with
its data by R188; that the window takes two bytes and that bytes 6 and 7 of STALE are 0 is inferred (DEDUCED, log 8). -/
def guardRefusal (gen : Half) (s : State) : Option Executed :=
  if s.isLocked then
    some (unchanged s .locked (bytes2 s.policy.generation ++ numBytes2 (windowCode s.time.activeWindow)))
  else if gen ≠ s.policy.generation then some (unchanged s .stale (bytes2 s.policy.generation))
  else none

/-- The end of an accepted guarded write: the generation rises by 1 with wrap, and POLICY is raised at the other
ports (R142, R144). -/
def acceptWrite (p : Port) (s : State) : State :=
  raiseOthers p .policy { s with policy.generation := s.policy.generation + 1 }

/-- The DONE response of an accepted write: the new generation, then the write's own data (R144, R188). -/
def accepted (p : Port) (s : State) (bytes : List Byte) : Executed :=
  answered (acceptWrite p s) .done (bytes2 (s.policy.generation + 1) ++ bytes)

/-- A class entry is stored. When its kind is EMERGENCY, the may-wait flag of the class is set in each profile
and the class leaves the manual bar set (R135). -/
def storeClass (c : ClassId) (e : ClassEntry) (s : State) : State :=
  let s1 := { s with policy.classes := s.policy.classes.set c e }
  if e.kind = .emergency then
    { s1 with
      policy.rates := Vector.ofFn fun pr : ProfileId =>
        s.policy.rates[pr].set c { s.policy.rates[pr][c] with mayWait := true }
      policy.bars := s.policy.bars &&& ~~~(1#16 <<< c.val) }
  else s1

/-- The execution of a WRITE_CLASS (R133 to R135). The record count of CLASS_LIVE takes two bytes (DEDUCED, log 8). -/
def runWriteClass (p : Port) (a : WriteClassArgs) (s : State) : Executed :=
  match classOf? a.cls, kindOf? a.kind with
  | none, _ => badRequest s 4
  | some _, none => badRequest s 5
  | some c, some k =>
    match guardRefusal a.gen s with
    | some e => e
    | none =>
      if k ≠ s.policy.classes[c].kind ∧ 0 < s.table.classCount[c] then
        unchanged s .classLive (bytes2 s.policy.generation ++ numBytes2 s.table.classCount[c])
      else
        let e := clampClass k a
        accepted p (storeClass c e s) (classBytes e)

/-- WRITE_CLASS (R135). -/
def execWriteClass (p : Port) (tag : Byte) (a : WriteClassArgs) (s : State) :
    Host.Outcome State Fault Refusal :=
  runRequest p tag (.writeClass a) (runWriteClass p a) s

/-- A rate entry is stored. In the active profile the class's exhausted flag is cleared, and its allowance is
loaded with R in ONESHOT mode and clamped to R otherwise (R119, R137). -/
def storeRate (pr : ProfileId) (c : ClassId) (e : RateEntry) (s : State) : State :=
  let s1 := { s with policy.rates := s.policy.rates.set pr (s.policy.rates[pr].set c e) }
  if pr = s.time.activeProfile then
    s1.updPacing c fun k =>
      { k with
        allowance := if e.mode = .oneshot then e.reload else min k.allowance e.reload
        exhausted := false }
  else s1

/-- The execution of a WRITE_RATES (R136, R137). -/
def runWriteRates (p : Port) (a : WriteRatesArgs) (s : State) : Executed :=
  match profileOf? a.profile, classOf? a.cls, modeOf? a.mode with
  | none, _, _ => badRequest s 4
  | some _, none, _ => badRequest s 5
  | some _, some _, none => badRequest s 9
  | some pr, some c, some m =>
    match guardRefusal a.gen s with
    | some e => e
    | none =>
      let e := clampRate s.policy.classes[c].kind m a
      let s1 := storeRate pr c e s
      let shown := if pr = s.time.activeProfile then numBytes2 s1.pacing.classes[c].allowance else []
      accepted p s1 (rateBytes e ++ shown)

/-- WRITE_RATES (R137). -/
def execWriteRates (p : Port) (tag : Byte) (a : WriteRatesArgs) (s : State) :
    Host.Outcome State Fault Refusal :=
  runRequest p tag (.writeRates a) (runWriteRates p a) s

/-- The execution of a WRITE_THRESHOLDS (R138). -/
def runWriteThresholds (p : Port) (a : WriteThresholdsArgs) (s : State) : Executed :=
  match profileOf? a.profile with
  | none => badRequest s 4
  | some pr =>
    match guardRefusal a.gen s with
    | some e => e
    | none =>
      let t := clampThresholds a
      accepted p { s with policy.thresholds := s.policy.thresholds.set pr t } (thresholdBytes t)

/-- WRITE_THRESHOLDS (R138). -/
def execWriteThresholds (p : Port) (tag : Byte) (a : WriteThresholdsArgs) (s : State) :
    Host.Outcome State Fault Refusal :=
  runRequest p tag (.writeThresholds a) (runWriteThresholds p a) s

/-- Limits are stored. For the active profile Feff is recomputed with service, and EXHAUSTED is evaluated
(R5, R15, R140). -/
def storeLimits (pr : ProfileId) (l : Limits) (s : State) : State :=
  let s1 := { s with policy.limits := s.policy.limits.set pr l }
  if pr = s.time.activeProfile then evalExhausted (refloor s1) else s1

/-- The execution of a WRITE_LIMITS (R139, R140). -/
def runWriteLimits (p : Port) (a : WriteLimitsArgs) (s : State) : Executed :=
  match profileOf? a.profile with
  | none => badRequest s 4
  | some pr =>
    match guardRefusal a.gen s with
    | some e => e
    | none =>
      let l := clampLimits a
      accepted p (storeLimits pr l s) (limitBytes l)

/-- WRITE_LIMITS (R140). -/
def execWriteLimits (p : Port) (tag : Byte) (a : WriteLimitsArgs) (s : State) :
    Host.Outcome State Fault Refusal :=
  runRequest p tag (.writeLimits a) (runWriteLimits p a) s

/-- The base profile is stored, and becomes active when no window is active (R141). -/
def storeBase (pr : ProfileId) (s : State) : State :=
  let s1 := { s with policy.base := pr }
  if s.time.activeWindow.isNone then setActiveProfile pr s1 else s1

/-- The execution of a SELECT_PROFILE (R141). -/
def runSelectProfile (p : Port) (a : SelectProfileArgs) (s : State) : Executed :=
  match profileOf? a.profile with
  | none => badRequest s 4
  | some pr =>
    match guardRefusal a.gen s with
    | some e => e
    | none =>
      let s1 := storeBase pr s
      accepted p s1 [byteOf pr.val, byteOf s1.time.activeProfile.val]

/-- SELECT_PROFILE (R141). -/
def execSelectProfile (p : Port) (tag : Byte) (a : SelectProfileArgs) (s : State) :
    Host.Outcome State Fault Refusal :=
  runRequest p tag (.selectProfile a) (runSelectProfile p a) s

/-- A window is stored and the active window evaluated (R157, R158). -/
def storeWindow (i : WindowId) (w : Window) (s : State) : State :=
  evalWindow { s with policy.windows := s.policy.windows.set i w }

/-- The execution of a WRITE_WINDOW (R157). -/
def runWriteWindow (p : Port) (a : WriteWindowArgs) (s : State) : Executed :=
  match windowOf? a.window, windowProfileOf? a.profile with
  | none, _ => badRequest s 4
  | some _, none => badRequest s 11
  | some i, some pr =>
    match guardRefusal a.gen s with
    | some e => e
    | none =>
      let w := clampWindow s.policy.windows[i] pr a
      let s1 := storeWindow i w s
      accepted p s1
        (windowTimingBytes w ++
          [byteOf (w.profile.val * 16 + w.minimum), byteOf (windowCode s1.time.activeWindow)])

/-- WRITE_WINDOW (R157). -/
def execWriteWindow (p : Port) (tag : Byte) (a : WriteWindowArgs) (s : State) :
    Host.Outcome State Fault Refusal :=
  runRequest p tag (.writeWindow a) (runWriteWindow p a) s

/-- The execution of a WRITE_WINDOW_BARS (R158). -/
def runWriteWindowBars (p : Port) (a : WriteWindowBarsArgs) (s : State) : Executed :=
  match windowOf? a.window with
  | none => badRequest s 4
  | some i =>
    match guardRefusal a.gen s with
    | some e => e
    | none =>
      let s1 := storeWindow i { s.policy.windows[i] with bars := a.mask } s
      accepted p s1 (bytes2 a.mask ++ [byteOf (windowCode s1.time.activeWindow)])

/-- WRITE_WINDOW_BARS (R158). -/
def execWriteWindowBars (p : Port) (tag : Byte) (a : WriteWindowBarsArgs) (s : State) :
    Host.Outcome State Fault Refusal :=
  runRequest p tag (.writeWindowBars a) (runWriteWindowBars p a) s

/-- The manual bar set becomes `bars`; POLICY is raised at the other ports when that changes it (R147, R148). -/
def setBars (p : Port) (bars : ClassSet) (s : State) : State :=
  if bars = s.policy.bars then s else raiseOthers p .policy { s with policy.bars := bars }

/-- The execution of a BAR_SET (R147). -/
def runBarSet (p : Port) (mask : Half) (s : State) : Executed :=
  let m := withoutEmergency s mask
  let bars := s.policy.bars ||| m
  answered (setBars p bars s) .done (bytes2 m ++ bytes2 bars)

/-- BAR_SET (R147). -/
def execBarSet (p : Port) (tag : Byte) (mask : Half) (s : State) : Host.Outcome State Fault Refusal :=
  runRequest p tag (.barSet mask) (runBarSet p mask) s

/-- The execution of a BAR_CLEAR (R148). Its LOCKED carries the manual bar set in bytes 4 and 5 (DEDUCED, log 8). -/
def runBarClear (p : Port) (mask : Half) (s : State) : Executed :=
  if s.isLocked then unchanged s .locked (bytes2 s.policy.bars)
  else
    let m := withoutEmergency s mask
    let bars := s.policy.bars &&& ~~~m
    answered (setBars p bars s) .done (bytes2 m ++ bytes2 bars)

/-- BAR_CLEAR (R148). -/
def execBarClear (p : Port) (tag : Byte) (mask : Half) (s : State) : Host.Outcome State Fault Refusal :=
  runRequest p tag (.barClear mask) (runBarClear p mask) s

/-- A class is rearmed: its exhausted flag is cleared, and in ONESHOT mode its allowance is loaded with R
(R118). -/
def rearmClass (c : ClassId) (s : State) : State :=
  let e := s.activeRate c
  s.updPacing c fun k =>
    { k with allowance := if e.mode = .oneshot then e.reload else k.allowance, exhausted := false }

/-- The execution of a REARM (R118); its LOCKED carries the data of a guarded write's (R188). The
exhausted flag of its DONE takes a byte alone (DEDUCED, log 8). -/
def runRearm (b : Byte) (s : State) : Executed :=
  match classOf? b with
  | none => badRequest s 2
  | some c =>
    if s.isLocked then
      unchanged s .locked (bytes2 s.policy.generation ++ numBytes2 (windowCode s.time.activeWindow))
    else
      let s1 := rearmClass c s
      let k := s1.pacing.classes[c]
      answered s1 .done ([byteOf c.val] ++ numBytes2 k.allowance ++ [flagsByte [k.exhausted]])

/-- REARM (R118). -/
def execRearm (p : Port) (tag : Byte) (b : Byte) (s : State) : Host.Outcome State Fault Refusal :=
  runRequest p tag (.rearm b) (runRearm b) s

/-- The data of one item of the policy image, or the argument byte that is out of range (R149, R187, R188). -/
def policyItem (a : ReadPolicyArgs) (s : State) : Except Nat (List Byte) :=
  match a.item.toNat with
  | 0 =>
    match classOf? a.arg1 with
    | none => .error 3
    | some c => .ok (classBytes s.policy.classes[c])
  | 1 =>
    match profileOf? a.arg1, classOf? a.arg2 with
    | none, _ => .error 3
    | some _, none => .error 4
    | some pr, some c => .ok (rateBytes s.policy.rates[pr][c])
  | 2 =>
    match profileOf? a.arg1 with
    | none => .error 3
    | some pr => .ok (thresholdBytes s.policy.thresholds[pr])
  | 3 =>
    match profileOf? a.arg1 with
    | none => .error 3
    | some pr => .ok (limitBytes s.policy.limits[pr])
  | 4 => .ok ([byteOf s.policy.base.val] ++ bytes2 s.policy.bars)
  | 5 =>
    match windowByteOf? a.arg1 with
    | none => .error 3
    | some i =>
      let w := s.policy.windows[i]
      match a.arg2.toNat with
      | 0 => .ok (windowTimingBytes w ++ bytes4 w.start)
      | 1 => .ok ([byteOf w.profile.val, byteOf w.minimum] ++ bytes2 w.bars)
      | _ => .error 4
  | _ => .error 2

/-- The execution of a READ_POLICY (R149). -/
def runReadPolicy (a : ReadPolicyArgs) (s : State) : Executed :=
  match policyItem a s with
  | .error k => badRequest s k
  | .ok bytes => unchanged s .done (bytes2 s.policy.generation ++ bytes)

/-- READ_POLICY (R149). -/
def execReadPolicy (p : Port) (tag : Byte) (a : ReadPolicyArgs) (s : State) :
    Host.Outcome State Fault Refusal :=
  runRequest p tag (.readPolicy a) (runReadPolicy a) s

end Sys2Proof.Machine
end

