-- ==== Sys2Proof/Machine/Ports.lean ====
section
/-! DEFINITION. Transactions as commands, port reset by PRST# and by PORT_CLEAR, and the reset of the part
(R178, R180 to R183, R190 to R192, R195). -/

namespace Sys2Proof.Machine

/-- TRANSACTION_START (R181). -/
def execTransactionStart (p : Port) (s : State) : Host.Outcome State Fault Refusal :=
  .next (startTransaction p s)

/-- TRANSACTION_END (R181). -/
def execTransactionEnd (p : Port) (clocks : Nat) (f : Frame) (s : State) :
    Host.Outcome State Fault Refusal :=
  .next (endTransaction p clocks f s)

/-- The ids of a port's records, by rising id (R38). -/
def recordsOf (p : Port) (s : State) : List RecId :=
  (s.table.records.filter fun e => e.2.owner = p).map (·.1)

/-- The reporting state of a port takes its reset values (R178). -/
def PortState.resetReporting (ps : PortState) : PortState :=
  { ps with events := 0, enables := defaultEnables, stalledArm := true, exhaustedArm := true }

/-- The end of a port reset sequence (R178, R190). The response of a PORT_CLEAR now joins the response queue
(R192, log 11), unless a fall of PRST# has discarded it. -/
def PortState.finishReset (ps : PortState) : PortState :=
  let ps1 := { ps.resetReporting with resetSeq := none }
  match ps.resetSeq with
  | some (.byClear (some r)) =>
    { ps1 with inflight := markExecuted ps1.inflight, responses := ps1.responses ++ [r] }
  | _ => ps1

/-- The sequence of a port ends once the port owns no record (R39, R190). -/
def finishIfDone (p : Port) (s : State) : State :=
  if (recordsOf p s).isEmpty then s.updPort p (·.finishReset) else s

/-- A transaction in progress that a fall of PRST# or RESET# meets is ignored as a whole, and MISO is high
impedance (R190, R191). That MISO stays so until CS# rises, whatever the pins do before, is the model's choice
(DESIGN CHOICE, log 15). -/
def PortState.dropTransaction (ps : PortState) : PortState :=
  { ps with
    transaction := ps.transaction.map fun _ =>
      { taken := false, out := none, carries := false, rejectShown := false } }

/-- The sequence that a fall of PRST# leaves in progress. A PORT_CLEAR of the port that is being executed loses its
response and goes on to its end (R192), after which PRST# finds no record of the port to free (log 16). -/
def ResetSeq.afterFall : Option ResetSeq → ResetSeq
  | some (.byClear _) => .byClear none
  | some .byPin => .byPin
  | none => .byPin

/-- The falling edge of PRST# at the port: its queues are emptied, REJECT is cleared, and the port reset sequence
begins (R190). -/
def PortState.beginReset (ps : PortState) : PortState :=
  { ps.dropTransaction with
    inflight := [], responses := [], reject := false, prstLow := true
    resetSeq := some (ResetSeq.afterFall ps.resetSeq) }

/-- PORT_RESET (R190). PRST# that is already low does not fall. While RESET# is low only the pin moves, since no
block takes an event (R191) and the queues wait for POWER_ON_RESET (log 17). -/
def execPortReset (p : Port) (s : State) : Host.Outcome State Fault Refusal :=
  if s.ports[p].prstLow then .next s
  else if s.resetLow then .next (s.updPort p fun ps => { ps.dropTransaction with prstLow := true })
  else .next (finishIfDone p (s.updPort p (·.beginReset)))

/-- The treatment of one record of the resetting port (R39). -/
def resetRecord (id : RecId) (r : CallRecord) (s : State) : State :=
  match r.state with
  | .holding _ => releaseRecord id r s
  | .preemptPending _ _ _ => releaseRecord id r s
  | .waiting _ => withdrawRecord id r s
  | .collecting _ _ _ => withdrawRecord id r s
  | .reclaimed => freeRecord id s
  | .expired => freeRecord id s

/-- The next record of a port's reset sequence, the lowest id it still owns, is treated (R38, R39). -/
def resetNext (p : Port) (s : State) : State :=
  match (recordsOf p s).head? with
  | none => s
  | some id =>
    match s.rec? id with
    | none => s
    | some r => resetRecord id r s

/-- A PORT_CLEAR is being executed: its sequence is in progress at some port (R192). -/
def State.clearing (s : State) : Bool :=
  (List.finRange 4).any fun p =>
    match s.ports[p].resetSeq with
    | some (.byClear _) => true
    | some .byPin => false
    | none => false

/-- The next record of a port's sequence may be treated: the sequence of a PORT_CLEAR is part of its execution
(R192), and that of PRST# is taken before or after an execution, not within it (R189). -/
def sequenceRuns (p : Port) (s : State) : Bool :=
  match s.ports[p].resetSeq with
  | none => false
  | some (.byClear _) => true
  | some .byPin => !s.clearing

/-- PORT_RESET_RECORD (R39). It stands while the port's sequence is in progress and may go on (log 3); after the
last record the sequence ends (R190). -/
def execPortResetRecord (p : Port) (s : State) : Host.Outcome State Fault Refusal :=
  if s.resetLow then .next s
  else if sequenceRuns p s then .next (finishIfDone p (resetNext p s))
  else .next s

/-- PORT_RESET_RELEASE: PRST# rises (R190). While records of the port's sequence are still to be treated, the pin
alone moves too: the port takes transactions at once, and its pending set, enable set and arm flags keep their old
values, show on ATTN# and in summaries, and latch events, until the sequence ends (DESIGN CHOICE, log 13). -/
def execPortResetRelease (p : Port) (s : State) : Host.Outcome State Fault Refusal :=
  .next (s.updPort p fun ps => { ps with prstLow := false })

/-- RESET_ASSERT: RESET# falls. No block takes events from here on, and a transaction in progress is ignored
(R180, R191). R191 does not say whether the blocks take their power-on values at the fall already: State keeps the old
values until POWER_ON_RESET (DESIGN CHOICE, log 17). -/
def execResetAssert (s : State) : Host.Outcome State Fault Refusal :=
  .next { (s.updPorts fun _ ps => ps.dropTransaction) with resetLow := true }

/-- The pins CS# and PRST# of a port keep their levels through the reset of the part (log 9). -/
def PortState.powerOn (ps : PortState) : PortState :=
  { PortState.reset with prstLow := ps.prstLow, transaction := ps.dropTransaction.transaction }

/-- POWER_ON_RESET: every block takes its power-on values (R17, R40, R86, R110, R131, R150, R164, R179, R191,
R195). The queue of commands is no part of the JT416. -/
def execPowerOnReset (s : State) : Host.Outcome State Fault Refusal :=
  .next { State.reset with
    ports := Vector.ofFn fun p => s.ports[p].powerOn
    pending := s.pending }

/-- The response that a PORT_CLEAR forms first: the number of records its port owns, and the number of other requests
discarded (R192). That an executed request whose response has not been delivered counts among these, so that the
number is that of all the other requests in flight, is read by inference (DEDUCED, log 14). -/
def clearResponse (p : Port) (s : State) : Response :=
  { tag := currentTag s.ports[p].inflight
    result := .done
    data := dataOf (numBytes2 (recordsOf p s).length ++ [byteOf (s.ports[p].inflight.length - 1)]) }

/-- What a PORT_CLEAR does at its port before the sequence: only its own request stays in flight, every response
is discarded, one that is being shifted out among them (R181), and REJECT is cleared (R192). -/
def PortState.beginClear (ps : PortState) (r : Response) : PortState :=
  { ps with
    inflight := (ps.inflight.find? fun q => !q.executed).toList
    responses := []
    reject := false
    transaction := ps.transaction.map fun t => { t with carries := false }
    resetSeq := some (.byClear (some r)) }

/-- The start of a PORT_CLEAR; the sequence goes on with PORT_RESET_RECORD, unless the port owns no record
(R192). -/
def runPortClear (p : Port) (s : State) : State :=
  let r := clearResponse p s
  finishIfDone p (s.updPort p (·.beginClear r))

/-- PORT_CLEAR (R192). -/
def execPortClear (p : Port) (tag : Byte) (s : State) : Host.Outcome State Fault Refusal :=
  match engineTake p tag .portClear s with
  | none => .next s
  | some s1 => .next (runPortClear p s1)

end Sys2Proof.Machine
end

