-- ==== Sys2Proof/Machine/Reporting.lean ====
section
/-! DEFINITION. FETCH_NOTICE, READ_EVENTS and SET_ENABLES (chapter 9), and the readings READ_POOL, READ_CLASS,
READ_STATUS, READ_TIME, READ_IDENT, and the unknown request code. -/

namespace Sys2Proof.Machine

/-- The data of a FETCH_NOTICE, packed as R188 gives it. -/
def noticeBytes (id : RecId) (r : CallRecord) (k : NoticeKind) (left : Nat) : List Byte :=
  numBytes2 (k.code * 8192 + id) ++ bytes2 r.ref ++ [byteOf (r.cls.val * 16 + r.state.code), byteOf r.unitsHeld] ++
  numBytes2 left

/-- The entry of a record leaves its owner's notice list, and its notice field with it (R167). -/
def takeNotice (id : RecId) (r : CallRecord) (s : State) : State :=
  (s.setRec id { r with notice := none }).updPort r.owner (·.leaveNotices id)

/-- The execution of a FETCH_NOTICE (R168, R169). -/
def runFetchNotice (p : Port) (s : State) : Executed :=
  match s.ports[p].notices with
  | [] => unchanged s .notFound []
  | id :: rest =>
    match s.rec? id with
    | none => unchanged s .notFound []
    | some r =>
      match r.notice with
      | none => unchanged s .notFound []
      | some k =>
        let s1 := if k.final then freeRecord id s else takeNotice id r s
        answered s1 .done (noticeBytes id r k rest.length)

/-- FETCH_NOTICE (R168). -/
def execFetchNotice (p : Port) (tag : Byte) (s : State) : Host.Outcome State Fault Refusal :=
  runRequest p tag .fetchNotice (runFetchNotice p) s

/-- A set of events as the two bytes of an event mask, bit n for event n (R186; DEDUCED, log 8). -/
def eventBytes (e : EventSet) : List Byte := bytes2 (e.setWidth 16)

/-- READ_EVENTS empties the pending set; NOTICE is added again at once while a notice waits (R174). -/
def PortState.readEvents (ps : PortState) : PortState :=
  { ps with events := if ps.notices.isEmpty then 0 else Event.notice.bit }

/-- The execution of a READ_EVENTS (R174). -/
def runReadEvents (p : Port) (s : State) : Executed :=
  let ps := s.ports[p]
  answered (s.updPort p (·.readEvents)) .done
    (eventBytes ps.events ++ eventBytes ps.enables ++
      [flagsByte [s.wait.stalled, s.pool.exhausted, ps.stalledArm, ps.exhaustedArm]] ++
      numBytes2 ps.notices.length)

/-- READ_EVENTS (R174). -/
def execReadEvents (p : Port) (tag : Byte) (s : State) : Host.Outcome State Fault Refusal :=
  runRequest p tag .readEvents (runReadEvents p) s

/-- The execution of a SET_ENABLES: bits 9 to 15 are ignored (R175). -/
def runSetEnables (p : Port) (mask : Half) (s : State) : Executed :=
  let e : EventSet := mask.extractLsb' 0 9
  answered (s.updPort p fun ps => { ps with enables := e }) .done
    (eventBytes e ++ eventBytes s.ports[p].events)

/-- SET_ENABLES (R175). -/
def execSetEnables (p : Port) (tag : Byte) (mask : Half) (s : State) : Host.Outcome State Fault Refusal :=
  runRequest p tag (.setEnables mask) (runSetEnables p mask) s

/-- The execution of a READ_POOL (R16). -/
def runReadPool (s : State) : Executed :=
  unchanged s .done
    (numBytes2 s.pool.capacity ++ numBytes2 s.pool.target ++ numBytes2 s.pool.free ++ numBytes2 s.pool.collected)

/-- READ_POOL (R16). -/
def execReadPool (p : Port) (tag : Byte) (s : State) : Host.Outcome State Fault Refusal :=
  runRequest p tag .readPool runReadPool s

/-- The execution of a READ_CLASS, packed as R188 gives it (R130). -/
def runReadClass (b : Byte) (s : State) : Executed :=
  match classOf? b with
  | none => badRequest s 2
  | some c =>
    let k := s.pacing.classes[c]
    unchanged s .done
      ([byteOf (s.policy.classes[c].kind.code * 64 + (s.activeRate c).mode.code * 16) |||
          flagsByte (s.barFlags c)] ++
        numBytes2 k.allowance ++ numBytes2 k.closed ++ numBytes2 s.table.classCount[c] ++
        [byteOf s.pacing.countdown])

/-- READ_CLASS (R130). -/
def execReadClass (p : Port) (tag : Byte) (b : Byte) (s : State) : Host.Outcome State Fault Refusal :=
  runRequest p tag (.readClass b) (runReadClass b) s

/-- The execution of a READ_STATUS, packed as R188 gives it (R193). -/
def runReadStatus (s : State) : Executed :=
  unchanged s .done
    ([byteOf (s.pacing.level * 64 + s.time.activeProfile.val * 16 + s.time.state.code * 8),
        byteOf (windowCode s.time.activeWindow)] ++
      bytes2 s.policy.generation ++ [byteOf s.wait.count, byteOf s.slotsInUse] ++ numBytes2 s.pool.debt)

/-- READ_STATUS (R193). -/
def execReadStatus (p : Port) (tag : Byte) (s : State) : Host.Outcome State Fault Refusal :=
  runRequest p tag .readStatus runReadStatus s

/-- The time fields that READ_TIME and SET_TIME report in bytes 4 to 10, packed as R188 gives them: the slew
remainder in nine bits of two's complement. -/
def timeBytes (t : TimeBase) : List Byte :=
  [byteOf (t.state.code * 128 + t.activeProfile.val * 32 + windowCode t.activeWindow)] ++ bytes4 t.seconds ++
  numBytes2 (t.tickInSecond * 512 + (BitVec.ofInt 9 t.slew).toNat)

/-- The execution of a READ_TIME (R156). -/
def runReadTime (s : State) : Executed :=
  unchanged s .done (timeBytes s.time ++ [s.time.ticks.extractLsb' 0 8])

/-- READ_TIME (R156). -/
def execReadTime (p : Port) (tag : Byte) (s : State) : Host.Outcome State Fault Refusal :=
  runRequest p tag .readTime runReadTime s

/-- The execution of a READ_IDENT (R194). -/
def runReadIdent (p : Port) (s : State) : Executed :=
  unchanged s .done
    (numBytes2 Config.partCode ++ [byteOf Config.revision, byteOf p.val] ++ numBytes2 Config.records)

/-- READ_IDENT (R194). -/
def execReadIdent (p : Port) (tag : Byte) (s : State) : Host.Outcome State Fault Refusal :=
  runRequest p tag .readIdent (runReadIdent p) s

/-- UNKNOWN_REQUEST_CODE: answered BAD_REQUEST with byte 0, and no state changes (R187). -/
def execUnknownRequestCode (p : Port) (tag : Byte) (code : Byte) (s : State) :
    Host.Outcome State Fault Refusal :=
  runRequest p tag (.unknown code) (fun s => badRequest s 0) s

end Sys2Proof.Machine
end

