-- ==== Sys2Proof/Machine/Time.lean ====
section
/-! DEFINITION. The time base (chapter 8): SET_TIME, SECOND_BOUNDARY and TICK. -/

namespace Sys2Proof.Machine

/-- A time as a number of ticks: seconds × 100 plus ticks (section 8.2). -/
def timeInTicks (seconds : BitVec 32) (ticks : Nat) : Int := (seconds.toNat * Config.ticksPerSecond + ticks : Nat)

/-- The time of day is loaded: the slew remainder is 0, and no second that ended before stays due (R154, R155,
log 7). TIME is raised and the active window evaluated. -/
def loadTime (seconds : BitVec 32) (ticks : Nat) (s : State) : State :=
  evalWindow (raiseAll .time { s with
    time.state := .running, time.seconds := seconds, time.tickInSecond := ticks,
    time.slew := 0, time.held := false, time.secondDue := none })

/-- SET_TIME with its clamped ticks: a load from UNSET, a slew of at most 200 ticks, or a step (R154, R155). -/
def setTimeOfDay (seconds : BitVec 32) (ticks : Nat) (s : State) : State :=
  match s.time.state with
  | .unset => loadTime seconds ticks s
  | .running =>
    let d := timeInTicks seconds ticks - timeInTicks s.time.seconds s.time.tickInSecond
    if -Config.slewMax ≤ d ∧ d ≤ Config.slewMax then { s with time.slew := d } else loadTime seconds ticks s

/-- The execution of a SET_TIME: ticks above 99 become 99 (R154, R155). -/
def runSetTime (a : SetTimeArgs) (s : State) : Executed :=
  let s1 := setTimeOfDay a.seconds (min 99 a.ticks.toNat) s
  answered s1 .done (timeBytes s1.time)

/-- SET_TIME (R154). -/
def execSetTime (p : Port) (tag : Byte) (a : SetTimeArgs) (s : State) : Host.Outcome State Fault Refusal :=
  runRequest p tag (.setTime a) (runSetTime a) s

/-- The slew remainder after the boundary of a second that ended after 99, 100 or 101 ticks (R153). It stays
within 200 ticks (log 7). -/
def slewAfter (e : SecondEnd) (slew : Int) : Int :=
  match e with
  | .short => if slew ≤ -Config.slewMax then slew else slew - 1
  | .full => slew
  | .held => if slew < 0 then slew + 1 else slew

/-- The second boundary that is due: the seconds rise by 1 with wrap, the tick-in-second becomes 0, slew is
absorbed, and the active window is evaluated (R152, R153, R160). -/
def takeSecond (e : SecondEnd) (s : State) : State :=
  evalWindow { s with
    time.seconds := s.time.seconds + 1, time.tickInSecond := 0,
    time.slew := slewAfter e s.time.slew, time.held := false, time.secondDue := none }

/-- SECOND_BOUNDARY (R152). It stands once a tick has ended the second (log 3). -/
def execSecondBoundary (s : State) : Host.Outcome State Fault Refusal :=
  if s.resetLow then .next s
  else
    match s.time.secondDue with
    | none => .next s
    | some e => .next (takeSecond e s)

/-- The tick-in-second at a tick while RUNNING: the second ends short, in full or held by the slew remainder as
R153 reads it. While a boundary is due the tick-in-second stands (log 5). -/
def TimeBase.tickSecond (t : TimeBase) : TimeBase :=
  if t.secondDue.isSome then t
  else if t.tickInSecond < 98 then { t with tickInSecond := t.tickInSecond + 1 }
  else if t.tickInSecond = 98 then
    if 0 < t.slew then { t with secondDue := some .short } else { t with tickInSecond := 99 }
  else if t.held then { t with secondDue := some .held }
  else if t.slew < 0 then { t with held := true }
  else { t with secondDue := some .full }

/-- The Time Base at a tick: the tick counter rises by 1 with wrap, and the time of day counts while RUNNING
(R151, R152). -/
def TimeBase.tick (t : TimeBase) : TimeBase :=
  let t := { t with ticks := t.ticks + 1 }
  match t.state with
  | .unset => t
  | .running => t.tickSecond

/-- A deadline and its waited count at a tick (R71). -/
def WaitFields.tick (w : WaitFields) : WaitFields :=
  if w.deadline = 0 then w else { w with deadline := w.deadline - 1, waited := w.waited + 1 }

/-- A setup timer at a tick (R27). -/
def HoldState.tick (h : HoldState) : HoldState :=
  match h with
  | .setup n => .setup (n - 1)
  | .sustain => .sustain
  | .continuous => .continuous

/-- The timers of a record at a tick: the deadline, the setup timer and the grace timer (R27, R71, R97). A timer
that has reached 0 stays there until its expiry is taken (log 5). -/
def RecState.tick (st : RecState) : RecState :=
  match st with
  | .waiting w => .waiting w.tick
  | .collecting w n vs => .collecting w.tick n vs
  | .holding h => .holding h.tick
  | .preemptPending h g c => .preemptPending h.tick (g - 1) c
  | .reclaimed => .reclaimed
  | .expired => .expired

/-- The interval countdown at a tick (R111). At 0 a boundary is reached for the Pacing Unit and the Wait List,
and the countdown is reloaded at once with the interval of the active profile. -/
def tickCountdown (s : State) : State :=
  if s.pacing.countdown ≤ 1 then
    { s with
      pacing.countdown := s.activeLimits.interval
      pacing.boundaryDue := true, pacing.reloadOpen := true, wait.boundaryDue := true }
  else { s with pacing.countdown := s.pacing.countdown - 1, pacing.reloadOpen := false }

/-- Every timer of the part counts a tick (R151). -/
def tickAll (s : State) : State :=
  let s1 := tickCountdown s
  { s1 with
    table.records := s1.table.records.map fun e => (e.1, { e.2 with state := e.2.state.tick })
    time := s1.time.tick }

/-- TICK (R151). While RESET# is low no block takes events (R191). -/
def execTick (s : State) : Host.Outcome State Fault Refusal :=
  if s.resetLow then .next s else .next (tickAll s)

end Sys2Proof.Machine
end

