-- ==== Sys2Proof/Machine/Timers.lean ====
section
/-! DEFINITION. The timer expiries (R28, R29, R72, R73, R98), the Pacing Unit's interval boundary (R112, R122 to
R126) and the Wait List's boundary work (R79 to R83). -/

namespace Sys2Proof.Machine

/-- The setup timer of a record has reached 0 (R27). -/
def CallRecord.setupDue (r : CallRecord) : Bool :=
  match r.state with
  | .holding (.setup 0) => true
  | .preemptPending (.setup 0) _ _ => true
  | _ => false

/-- SETUP_TIMER_EXPIRY of a record (R28, R29). It stands once setup remaining is 0 (log 3). -/
def execSetupTimerExpiry (id : RecId) (s : State) : Host.Outcome State Fault Refusal :=
  if s.resetLow then .next s
  else
    match s.rec? id with
    | none => .next s
    | some r => if r.setupDue then .next (endSetup id r s) else .next s

/-- A victim is reclaimed, in the order of R98; its units go first to its collector. -/
def reclaim (id : RecId) (r : CallRecord) (collector : RecId) (s : State) : State :=
  let s1 := leaveVictims id collector s
  let s2 := postNotice id .reclaimed (leaveHoldings id (s1.setRec id { r with state := .reclaimed }))
  distribute (some collector) r.unitsHeld s2

/-- GRACE_EXPIRY of a record (R98). It stands once grace remaining is 0 (log 3). -/
def execGraceExpiry (id : RecId) (s : State) : Host.Outcome State Fault Refusal :=
  if s.resetLow then .next s
  else
    match s.rec? id with
    | none => .next s
    | some r =>
      match r.state with
      | .preemptPending _ 0 c => .next (reclaim id r c s)
      | _ => .next s

/-- A wait ends by its deadline: a WAITING record becomes EXPIRED (R72); a collection is ended, the record becomes
EXPIRED, and its collected units come back (R73). Other records are left alone. -/
def expireWait (id : RecId) (r : CallRecord) (s : State) : State :=
  match r.state with
  | .waiting _ =>
    postNotice id .expired ((leaveWait id r.level s).setRec id { r with state := .expired })
  | .collecting _ collected victims =>
    distribute none collected (postNotice id .expired (endCollecting id r collected victims s))
  | _ => s

/-- The deadline of a record has reached 0 (R71). -/
def CallRecord.deadlineDue (r : CallRecord) : Bool :=
  match r.state with
  | .waiting w => w.deadline == 0
  | .collecting w _ _ => w.deadline == 0
  | _ => false

/-- DEADLINE_EXPIRY of a record (R72, R73). It stands once deadline remaining is 0 (log 3). -/
def execDeadlineExpiry (id : RecId) (s : State) : Host.Outcome State Fault Refusal :=
  if s.resetLow then .next s
  else
    match s.rec? id with
    | none => .next s
    | some r => if r.deadlineDue then .next (expireWait id r s) else .next s

/-- Stage 1: the occupancy q (R122). -/
def occupancy (p : Pool) : Nat := 100 * (p.capacity - p.free) / p.capacity

/-- The number of thresholds of a list that q reaches (R124). -/
def reached (q : Nat) (ts : List Nat) : Nat := (ts.filter fun t => decide (t ≤ q)).length

/-- The hysteresis of stage 2 (R124). -/
def hysteresis (t : Thresholds) (q level : Nat) : Nat :=
  let up := reached q [t.u1, t.u2, t.u3]
  let down := reached q [t.d1, t.d2, t.d3]
  if level < up then up else if down < level then down else level

/-- An EMERGENCY record is WAITING or COLLECTING (R123). -/
def State.emergencyWaits (s : State) : Bool :=
  s.table.records.any fun e => e.2.kind == .emergency && (e.2.isWaiting || e.2.isCollecting)

/-- The least pressure level of the active window, 0 when none is active (R123). -/
def State.minimumLevel (s : State) : Nat :=
  match s.windowInForce with
  | none => 0
  | some w => w.minimum

/-- Stage 2: hysteresis, then the window minimum, then a waiting emergency (R124). -/
def newLevel (s : State) : Nat :=
  let l := max (hysteresis s.activeThresholds (occupancy s.pool) s.pacing.level) s.minimumLevel
  if l < 2 ∧ s.emergencyWaits = true then 2 else l

/-- Stage 3: the headroom (R125). -/
def headroom (p : Pool) : Nat := p.free - p.feff

/-- A class is in the share set (R125). -/
def State.inShareSet (s : State) (c : ClassId) : Bool :=
  s.policy.classes[c].kind == .general && (s.activeRate c).mode == .paced && !s.isBarred c &&
  decide (0 < (s.activeRate c).weight) && decide (0 < s.pacing.classes[c].attempts)

/-- The sum of the weights over the share set (R125). -/
def State.weightSum (s : State) : Nat :=
  (List.finRange 16).foldl (fun n c => if s.inShareSet c then n + (s.activeRate c).weight else n) 0

/-- Stages 4 and 5: the share of a class of the share set, scaled by the pressure level (R125, R126). -/
def scaledShare (s : State) (level : Nat) (c : ClassId) : Nat :=
  headroom s.pool * (s.activeRate c).weight / s.weightSum / 2 ^ level

/-- Stage 6: the new allowance of a class, at the pressure level that stage 2 found (R126). -/
def newAllowance (s : State) (level : Nat) (c : ClassId) : Nat :=
  let e := s.activeRate c
  let old := s.pacing.classes[c].allowance
  match s.policy.classes[c].kind with
  | .general =>
    match e.mode with
    | .oneshot => old
    | .fixed => e.reload
    | .paced =>
      if s.isBarred c then 0
      else
        let trickle := if level < 3 then e.trickle else 0
        if s.inShareSet c then
          min e.reload (max trickle (scaledShare s level c / s.policy.classes[c].u))
        else trickle
  | .emergency => old
  | .priority => old
  | .unused => old

/-- The Pacing Unit's boundary event, in the order of R112: its inputs are those of the state before it (R123).
The countdown is loaded with the interval of the profile now active, unless a tick has come since (log 6). -/
def paceBoundary (s : State) : State :=
  let level := newLevel s
  let classes := Vector.ofFn fun c =>
    let k := s.pacing.classes[c]
    { k with allowance := newAllowance s level c, closed := k.attempts, attempts := 0 }
  let s1 := setPressure level s
  { s1 with
    pacing.classes := classes
    pacing.countdown := if s.pacing.reloadOpen then s.activeLimits.interval else s.pacing.countdown
    pacing.boundaryDue := false
    pacing.reloadOpen := false }

/-- INTERVAL_BOUNDARY (R112). It stands once the countdown has reached 0 (log 3). -/
def execIntervalBoundary (s : State) : Host.Outcome State Fault Refusal :=
  if s.resetLow then .next s
  else if s.pacing.boundaryDue then .next (paceBoundary s)
  else .next s

/-- A WAITING record may start a pre-emption at a boundary retry; the preempt flag is the class table's (R80). -/
def retryCapable (s : State) (r : CallRecord) : Bool :=
  match r.kind with
  | .emergency => true
  | .priority => s.policy.classes[r.cls].preempt
  | .general => false
  | .unused => false

/-- The boundary retry over a list of records in service order (R80, R81). Each success makes a record
COLLECTING and leaves the other WAITING records as they are. -/
def retryList (ids : List RecId) (s : State) : State :=
  match ids with
  | [] => s
  | id :: rest =>
    match s.rec? id with
    | none => retryList rest s
    | some r =>
      match r.state with
      | .waiting w =>
        if retryCapable s r then
          if w.need ≤ s.pool.free then s
          else
            match selectVictims s r.level w.need with
            | none => s
            | some victims => retryList rest (makeCollector id r w victims s)
        else retryList rest s
      | _ => retryList rest s

/-- A record meets the stall test (R83). -/
def CallRecord.isStalled (r : CallRecord) (limit : Nat) : Bool :=
  match r.state with
  | .waiting w => r.kind == .emergency && decide (limit * Config.ticksPerStep ≤ w.waited)
  | _ => false

/-- The STALLED condition is evaluated (R83). -/
def evalStalled (s : State) : State :=
  setStalled (s.table.records.any fun e => e.2.isStalled s.activeLimits.stall) s

/-- The service of the boundary work, with its evaluation of EXHAUSTED (R15, R67, R70). -/
def boundaryService (s : State) : State :=
  if 0 < s.pool.free then evalExhausted (service s) else s

/-- The Wait List's boundary work: service, then the retry, then the STALLED test (R79). -/
def boundaryWork (s : State) : State :=
  let s1 := boundaryService { s with wait.boundaryDue := false }
  evalStalled (retryList (waitingOrder s1) s1)

/-- WAIT_LIST_BOUNDARY_WORK (R79). It stands once the countdown has reached 0 (log 3). -/
def execWaitListBoundaryWork (s : State) : Host.Outcome State Fault Refusal :=
  if s.resetLow then .next s
  else if s.wait.boundaryDue then .next (boundaryWork s)
  else .next s

end Sys2Proof.Machine
end

