-- ==== Sys2Proof/Machine/Dispatch.lean ====
section
/-! DEFINITION. One arm per command: its effect on everything but the queue. -/

namespace Sys2Proof.Machine

def exec (i : Instr) (s : State) : Host.Outcome State Fault Refusal :=
  match i with
  | .admitCall p tag a => Sys2Proof.Machine.execAdmit p tag a s
  | .release p tag a => Sys2Proof.Machine.execRelease p tag a s
  | .cancel p tag a => Sys2Proof.Machine.execCancel p tag a s
  | .settle p tag a => Sys2Proof.Machine.execSettle p tag a s
  | .query p tag id => Sys2Proof.Machine.execQuery p tag id s
  | .fetchNotice p tag => Sys2Proof.Machine.execFetchNotice p tag s
  | .readEvents p tag => Sys2Proof.Machine.execReadEvents p tag s
  | .setEnables p tag mask => Sys2Proof.Machine.execSetEnables p tag mask s
  | .readPool p tag => Sys2Proof.Machine.execReadPool p tag s
  | .readClass p tag cls => Sys2Proof.Machine.execReadClass p tag cls s
  | .readStatus p tag => Sys2Proof.Machine.execReadStatus p tag s
  | .barSet p tag mask => Sys2Proof.Machine.execBarSet p tag mask s
  | .barClear p tag mask => Sys2Proof.Machine.execBarClear p tag mask s
  | .rearm p tag cls => Sys2Proof.Machine.execRearm p tag cls s
  | .writeClass p tag a => Sys2Proof.Machine.execWriteClass p tag a s
  | .writeRates p tag a => Sys2Proof.Machine.execWriteRates p tag a s
  | .writeThresholds p tag a => Sys2Proof.Machine.execWriteThresholds p tag a s
  | .writeLimits p tag a => Sys2Proof.Machine.execWriteLimits p tag a s
  | .writeCapacity p tag target => Sys2Proof.Machine.execWriteCapacity p tag target s
  | .selectProfile p tag a => Sys2Proof.Machine.execSelectProfile p tag a s
  | .writeWindow p tag a => Sys2Proof.Machine.execWriteWindow p tag a s
  | .writeWindowBars p tag a => Sys2Proof.Machine.execWriteWindowBars p tag a s
  | .readPolicy p tag a => Sys2Proof.Machine.execReadPolicy p tag a s
  | .setTime p tag a => Sys2Proof.Machine.execSetTime p tag a s
  | .readTime p tag => Sys2Proof.Machine.execReadTime p tag s
  | .portClear p tag => Sys2Proof.Machine.execPortClear p tag s
  | .readIdent p tag => Sys2Proof.Machine.execReadIdent p tag s
  | .unknownRequestCode p tag code => Sys2Proof.Machine.execUnknownRequestCode p tag code s
  | .transactionStart p => Sys2Proof.Machine.execTransactionStart p s
  | .transactionEnd p clocks f => Sys2Proof.Machine.execTransactionEnd p clocks f s
  | .portReset p => Sys2Proof.Machine.execPortReset p s
  | .portResetRecord p => Sys2Proof.Machine.execPortResetRecord p s
  | .portResetRelease p => Sys2Proof.Machine.execPortResetRelease p s
  | .resetAssert => Sys2Proof.Machine.execResetAssert s
  | .powerOnReset => Sys2Proof.Machine.execPowerOnReset s
  | .tick => Sys2Proof.Machine.execTick s
  | .setupTimerExpiry id => Sys2Proof.Machine.execSetupTimerExpiry id s
  | .graceExpiry id => Sys2Proof.Machine.execGraceExpiry id s
  | .deadlineExpiry id => Sys2Proof.Machine.execDeadlineExpiry id s
  | .intervalBoundary => Sys2Proof.Machine.execIntervalBoundary s
  | .waitListBoundaryWork => Sys2Proof.Machine.execWaitListBoundaryWork s
  | .secondBoundary => Sys2Proof.Machine.execSecondBoundary s

end Sys2Proof.Machine
end

