-- ==== Sys2Proof/Safety.lean ====
section
/-! DEFINITION. What the spec promises of every state the part reaches, as predicates on one state. They are the
terms in which the statements about every step are written. -/

namespace Sys2Proof

/-- The command that carries a request of a port (R186). -/
def Request.command (q : Request) (p : Port) (tag : Byte) : Instr :=
  match q with
  | .admitCall a => .admitCall p tag a
  | .release a => .release p tag a
  | .cancel a => .cancel p tag a
  | .settle a => .settle p tag a
  | .query id => .query p tag id
  | .fetchNotice => .fetchNotice p tag
  | .readEvents => .readEvents p tag
  | .setEnables mask => .setEnables p tag mask
  | .readPool => .readPool p tag
  | .readClass cls => .readClass p tag cls
  | .readStatus => .readStatus p tag
  | .barSet mask => .barSet p tag mask
  | .barClear mask => .barClear p tag mask
  | .rearm cls => .rearm p tag cls
  | .writeClass a => .writeClass p tag a
  | .writeRates a => .writeRates p tag a
  | .writeThresholds a => .writeThresholds p tag a
  | .writeLimits a => .writeLimits p tag a
  | .writeCapacity target => .writeCapacity p tag target
  | .selectProfile a => .selectProfile p tag a
  | .writeWindow a => .writeWindow p tag a
  | .writeWindowBars a => .writeWindowBars p tag a
  | .readPolicy a => .readPolicy p tag a
  | .setTime a => .setTime p tag a
  | .readTime => .readTime p tag
  | .portClear => .portClear p tag
  | .readIdent => .readIdent p tag
  | .unknown code => .unknownRequestCode p tag code

/-- The first byte of a list that is out of range: each byte's number with whether it is in range. -/
def firstOut : List (Nat × Bool) → Option Nat
  | [] => none
  | (k, inRange) :: rest => if inRange then firstOut rest else some k

/-- The number of the first argument byte that is out of range and cannot be clamped, 0 for an unknown code (R187).
The byte numbers are those of R186. -/
def Request.firstBadByte? (q : Request) : Option Nat :=
  match q with
  | .admitCall a => firstOut [(4, a.cls.toNat < 16)]
  | .release a => firstOut [(2, a.id.toNat < 1024)]
  | .cancel a => firstOut [(2, a.id.toNat < 1024)]
  | .settle a => firstOut [(2, a.id.toNat < 1024)]
  | .query id => firstOut [(2, id.toNat < 1024)]
  | .readClass cls => firstOut [(2, cls.toNat < 16)]
  | .rearm cls => firstOut [(2, cls.toNat < 16)]
  | .writeClass a => firstOut [(4, a.cls.toNat < 16), (5, a.kind.toNat < 4)]
  | .writeRates a => firstOut [(4, a.profile.toNat < 4), (5, a.cls.toNat < 16), (9, a.mode.toNat < 3)]
  | .writeThresholds a => firstOut [(4, a.profile.toNat < 4)]
  | .writeLimits a => firstOut [(4, a.profile.toNat < 4)]
  | .selectProfile a => firstOut [(4, a.profile.toNat < 4)]
  | .writeWindow a => firstOut [(4, a.window.toNat < 8), (11, a.profile.toNat < 4)]
  | .writeWindowBars a => firstOut [(4, a.window.toNat < 8)]
  | .readPolicy a =>
    match a.item.toNat with
    | 0 => firstOut [(3, a.arg1.toNat < 16)]
    | 1 => firstOut [(3, a.arg1.toNat < 4), (4, a.arg2.toNat < 16)]
    | 2 => firstOut [(3, a.arg1.toNat < 4)]
    | 3 => firstOut [(3, a.arg1.toNat < 4)]
    | 4 => none
    | 5 => firstOut [(3, a.arg1.toNat < 8), (4, a.arg2.toNat < 2)]
    | _ => some 2
  | .unknown _ => some 0
  | .fetchNotice => none
  | .readEvents => none
  | .setEnables _ => none
  | .readPool => none
  | .readStatus => none
  | .barSet _ => none
  | .barClear _ => none
  | .writeCapacity _ => none
  | .setTime _ => none
  | .readTime => none
  | .portClear => none
  | .readIdent => none

/-- The expected generation that a guarded write carries; other requests carry none (R143). -/
def Request.expectedGeneration? (q : Request) : Option Half :=
  match q with
  | .writeClass a => some a.gen
  | .writeRates a => some a.gen
  | .writeThresholds a => some a.gen
  | .writeLimits a => some a.gen
  | .selectProfile a => some a.gen
  | .writeWindow a => some a.gen
  | .writeWindowBars a => some a.gen
  | _ => none

end Sys2Proof

namespace Sys2Proof.Machine

/-- The sum of a quantity over the records. -/
def sumOver (q : CallRecord → Nat) (rs : List (RecId × CallRecord)) : Nat :=
  match rs with
  | [] => 0
  | (_, r) :: rest => q r + sumOver q rest

/-- The held total: the units that all records hold (R1). -/
def State.heldTotal (s : State) : Nat := sumOver CallRecord.unitsHeld s.table.records

/-- The units that all records have collected (R2). -/
def State.collectedSum (s : State) : Nat := sumOver CallRecord.unitsCollected s.table.records

/-- Ids rise strictly through the list of records (log 4). -/
def idsRise : List (RecId × CallRecord) → Bool
  | [] => true
  | [_] => true
  | (i, _) :: (j, r) :: rest => decide (i < j) && idsRise ((j, r) :: rest)

/-- The fields of one record agree with each other: v is at most u (section 2.1), u is at least 1, a need is u
(R65), and a collector has less than its need (R88). -/
def CallRecord.unitsAgree (r : CallRecord) : Bool :=
  decide (r.v ≤ r.u) && decide (1 ≤ r.u) &&
  match r.state with
  | .waiting w => w.need == r.u
  | .collecting w n _ => w.need == r.u && decide (n < w.need)
  | _ => true

/-- The books of the pool: free, held and collected units add up to C (R1), the collected total is the sum of
the collected counts (R2), T is at most C (R13), both lie within 64 to 4095 (section 1.1), Feff is that of the
active profile (R4), and the records agree. -/
structure PoolBooks (s : State) : Prop where
  idsRise : idsRise s.table.records = true
  agree : s.table.records.all (fun e => e.2.unitsAgree) = true
  balance : s.pool.free + s.heldTotal + s.collectedSum = s.pool.capacity
  collected : s.pool.collected = s.collectedSum
  target : s.pool.target ≤ s.pool.capacity
  least : 64 ≤ s.pool.target
  most : s.pool.capacity ≤ 4095
  feff : s.pool.feff = floorOf s.activeLimits.floor s.pool.capacity

/-- A class entry lies within the ranges and clamps of section 7.2. -/
def ClassEntry.inRange (e : ClassEntry) : Bool :=
  decide (1 ≤ e.u) && decide (e.u ≤ 255) && decide (e.v ≤ e.u) && decide (1 ≤ e.hold) && decide (e.hold ≤ 255) &&
  match e.kind with
  | .emergency => e.level == 0 && e.preempt && !e.vulnerable
  | .priority => decide (1 ≤ e.level) && decide (e.level ≤ 3)
  | .general => decide (2 ≤ e.level) && !e.preempt
  | .unused => true

/-- A rate entry of a class of kind `k` lies within the ranges and clamps of section 7.3. -/
def RateEntry.inRange (e : RateEntry) (k : Kind) : Bool :=
  decide (e.weight ≤ 15) && decide (e.reload ≤ 1023) && decide (e.trickle ≤ 15) && decide (e.trickle ≤ e.reload) &&
  decide (1 ≤ e.waitLimit) && decide (e.waitLimit ≤ 255) && (e.mayWait || k != .emergency)

/-- Thresholds lie within the ranges of R123 and R138. -/
def Thresholds.inRange (t : Thresholds) : Bool :=
  decide (1 ≤ t.u1) && decide (t.u1 ≤ t.u2) && decide (t.u2 ≤ t.u3) && decide (t.u3 ≤ 100) &&
  decide (t.d1 < t.u1) && decide (t.d2 < t.u2) && decide (t.d3 < t.u3)

/-- Limits lie within the ranges of R139. -/
def Limits.inRange (l : Limits) : Bool :=
  decide (l.floor ≤ 1023) && decide (5 ≤ l.interval) && decide (l.interval ≤ 100) && decide (1 ≤ l.grace) &&
  decide (l.grace ≤ 255) && decide (1 ≤ l.stall) && decide (l.stall ≤ 255) && decide (l.exhaust ≤ 255)

/-- A surge window lies within the ranges of section 8.5. -/
def Window.inRange (w : Window) : Bool :=
  decide (1 ≤ w.duration) && decide (w.duration ≤ 1440) && decide (w.minimum ≤ 3)

/-- The policy image holds clamped values only (R133, R136, R138, R139, R157), and no EMERGENCY class stands in
the manual bar set (R146). -/
structure PolicyClamped (s : State) : Prop where
  classes : ∀ c : ClassId, s.policy.classes[c].inRange = true
  rates : ∀ (p : ProfileId) (c : ClassId), (s.policy.rates[p][c].inRange s.policy.classes[c].kind) = true
  thresholds : ∀ p : ProfileId, s.policy.thresholds[p].inRange = true
  limits : ∀ p : ProfileId, s.policy.limits[p].inRange = true
  windows : ∀ w : WindowId, s.policy.windows[w].inRange = true
  bars : ∀ c : ClassId, s.policy.classes[c].kind = .emergency → inClasses s.policy.bars c = false

/-- The allowance of every class lies between 0 and its reload R in the active profile (R114), an exhausted class
is ONESHOT and has allowance 0 (R117, R120), the countdown holds 1 to 100 (R111), and the level is at most 3 and not below the active
window's minimum (R121). -/
structure PacingInRange (s : State) : Prop where
  allowance : ∀ c : ClassId, s.pacing.classes[c].allowance ≤ (s.activeRate c).reload
  exhausted : ∀ c : ClassId, s.pacing.classes[c].exhausted = true →
    s.pacing.classes[c].allowance = 0 ∧ (s.activeRate c).mode = .oneshot
  countdown : 1 ≤ s.pacing.countdown ∧ s.pacing.countdown ≤ 100
  level : s.pacing.level ≤ 3
  minimum : s.minimumLevel ≤ s.pacing.level

/-- The requests of an in-flight queue that have been executed stand before those that have not (R184). -/
def executedFirst : List InFlight → Bool
  | [] => true
  | q :: rest => if q.executed then executedFirst rest else rest.all fun x => !x.executed

/-- The queues of a port: at most 4 requests in flight (R182), the executed ones first, and one response queued
for each executed request (section 10.1); a transaction that carries a response finds the one it carries at the
head of the queue (R181); and the request of a PORT_CLEAR whose response waits for the end of its sequence is in flight (R192). -/
def PortState.queuesAgree (ps : PortState) : Bool :=
  decide (ps.inflight.length ≤ Config.inFlightLimit) && executedFirst ps.inflight &&
  (ps.inflight.filter (·.executed)).length == ps.responses.length &&
  (ps.transaction.all fun t => !t.carries || !ps.responses.isEmpty) &&
  match ps.resetSeq with
  | some (.byClear (some _)) => ps.inflight.any fun q => !q.executed
  | some (.byClear none) => true
  | some .byPin => true
  | none => true

/-- The queues of every port agree. -/
def QueuesAgree (s : State) : Prop := ∀ p : Port, s.ports[p].queuesAgree = true

/-- The notice lists and the notice fields agree: a list holds the ids of those records of its own port that have
a notice pending, once each (R165), a record carries a final notice exactly while it stands in the state of that
name (R26), and NOTICE is pending at a port exactly while its list is not empty (R172). -/
structure NoticeBooks (s : State) : Prop where
  idsRise : idsRise s.table.records = true
  lists : ∀ (p : Port) (id : RecId), id ∈ s.ports[p].notices ↔
    ∃ r, s.rec? id = some r ∧ r.owner = p ∧ r.notice ≠ none
  once : ∀ p : Port, s.ports[p].notices.Nodup
  final : ∀ (id : RecId) (r : CallRecord), s.rec? id = some r →
    (r.state = .reclaimed ↔ r.notice = some .reclaimed) ∧ (r.state = .expired ↔ r.notice = some .expired)
  event : ∀ p : Port, s.ports[p].events.getLsbD Event.notice.num = !s.ports[p].notices.isEmpty

/-- A record is a holding or a victim (section 2.4). -/
def CallRecord.isHolding (r : CallRecord) : Bool :=
  match r.state with
  | .holding _ => true
  | .preemptPending _ _ _ => true
  | _ => false

/-- The orders hold what they should, once each: the holding order list the holdings (R24), the arrival order and
the level list of its level every record in WAITING or COLLECTING (R64), and the wait count counts them. -/
structure OrderBooks (s : State) : Prop where
  idsRise : idsRise s.table.records = true
  holdings : ∀ id, id ∈ s.table.holdings ↔ ∃ r, s.rec? id = some r ∧ r.isHolding = true
  holdingsOnce : s.table.holdings.Nodup
  arrival : ∀ id, id ∈ s.wait.arrival ↔ ∃ r, s.rec? id = some r ∧ (r.isWaiting || r.isCollecting) = true
  arrivalOnce : s.wait.arrival.Nodup
  levels : ∀ (l : Level) (id : RecId), id ∈ s.wait.levels[l] ↔
    ∃ r, s.rec? id = some r ∧ (r.isWaiting || r.isCollecting) = true ∧ r.level = l
  levelsOnce : ∀ l : Level, s.wait.levels[l].Nodup
  count : s.wait.count = s.wait.arrival.length

/-- The table: ids rise and lie within 0 to 1023 (section 2.1), each class count is the number of its records
(R22), and no port has two live records with the same call reference (R23). -/
structure TableBooks (s : State) : Prop where
  idsRise : idsRise s.table.records = true
  ids : ∀ e ∈ s.table.records, e.1 < Config.records
  counts : ∀ c : ClassId, s.table.classCount[c] = (s.table.records.filter fun e => e.2.cls = c).length
  references : ∀ (i j : RecId) (r x : CallRecord), s.rec? i = some r → s.rec? j = some x →
    r.isLive = true → x.isLive = true → r.owner = x.owner → r.ref = x.ref → i = j

/-- The units held by the records of a list of ids. -/
def State.unitsOf (s : State) (ids : List RecId) : Nat :=
  match ids with
  | [] => 0
  | id :: rest =>
    (match s.rec? id with
      | none => 0
      | some r => r.unitsHeld) + s.unitsOf rest

/-- Collectors and victims: a victim list has 1 to 8 ids, each once, and what its collector has collected together
with the units its victims hold covers the need (R88, R89); a victim list and the collector fields of its victims
name each other, the collector at the more urgent level (R88); and the collectors are in the slots, once each
(R87). -/
structure CollectorBooks (s : State) : Prop where
  lists : ∀ (id : RecId) (r : CallRecord) (w : WaitFields) (n : Nat) (vs : List RecId),
    s.rec? id = some r → r.state = .collecting w n vs →
      1 ≤ vs.length ∧ vs.length ≤ Config.victimLimit ∧ vs.Nodup ∧ w.need ≤ n + s.unitsOf vs ∧
      ∀ v ∈ vs, ∃ x h g, s.rec? v = some x ∧ x.state = .preemptPending h g id ∧ r.level < x.level
  victims : ∀ (id : RecId) (x : CallRecord) (h : HoldState) (g : Nat) (c : RecId),
    s.rec? id = some x → x.state = .preemptPending h g c →
      ∃ r w n vs, s.rec? c = some r ∧ r.state = .collecting w n vs ∧ id ∈ vs
  slots : ∀ id : RecId, (∃ i : Fin 8, s.slots[i] = some id) ↔
    ∃ r, s.rec? id = some r ∧ r.isCollecting = true
  slotsOnce : ∀ (i j : Fin 8) (id : RecId), s.slots[i] = some id → s.slots[j] = some id → i = j

/-- Free units come last: none is free while a record is COLLECTING or a debt is owed (R10, R13). -/
def FreeLast (s : State) : Prop :=
  0 < s.pool.debt ∨ (∃ id r, s.rec? id = some r ∧ r.isCollecting = true) → s.pool.free = 0

/-- The active profile is that of the active window, or the base profile (R132, R161). -/
def ProfileFollows (s : State) : Prop := s.time.activeProfile = profileOfWindow s s.time.activeWindow

/-- The time of day: UNSET holds 0, reaches no second boundary and has no active window (R152), the tick-in-second
is at most 99, and the slew remainder within 200 ticks (section 8.2). -/
structure TimeInRange (t : TimeBase) : Prop where
  unset : t.state = .unset → t.seconds = 0 ∧ t.tickInSecond = 0 ∧ t.slew = 0 ∧ t.activeWindow = none ∧
    t.secondDue = none
  ticks : t.tickInSecond ≤ 99
  slew : -Config.slewMax ≤ t.slew ∧ t.slew ≤ Config.slewMax

/-- A state with a response queued at a port: the port's oldest unexecuted request counts as executed, and its
response, with its tag, the result and data placed from byte 4, joins the response queue (R184, R188, R189). -/
def State.respond (s : State) (p : Port) (r : ResultCode) (bytes : List Byte) : State :=
  s.updPort p fun ps => ps.answer r (dataOf bytes)

/-- Each port keeps its queues, its REJECT flag, its pins, its reset sequence and its enable set. -/
structure QueuesKept (s t : State) : Prop where
  inflight : ∀ p : Port, t.ports[p].inflight = s.ports[p].inflight
  responses : ∀ p : Port, t.ports[p].responses = s.ports[p].responses
  reject : ∀ p : Port, t.ports[p].reject = s.ports[p].reject
  prstLow : ∀ p : Port, t.ports[p].prstLow = s.ports[p].prstLow
  transaction : ∀ p : Port, t.ports[p].transaction = s.ports[p].transaction
  resetSeq : ∀ p : Port, t.ports[p].resetSeq = s.ports[p].resetSeq
  enables : ∀ p : Port, t.ports[p].enables = s.ports[p].enables

/-- Only the pool, the table, the wait list, the slots, and of each port the notice list, the pending set and the
arm flags may differ. -/
structure Untouched (s t : State) : Prop where
  policy : t.policy = s.policy
  time : t.time = s.time
  pacing : t.pacing = s.pacing
  pointer : t.pointer = s.pointer
  resetLow : t.resetLow = s.resetLow
  pending : t.pending = s.pending
  queues : QueuesKept s t

/-- An ADMIT passes steps 1 to 6 (R43): its class is not UNUSED, its port has no live record of its reference, the
class is not barred, a GENERAL class has allowance, and a record is FREE, for a GENERAL class above the record
floor. -/
structure PassesChecks (s : State) (p : Port) (a : AdmitArgs) (c : ClassId) : Prop where
  used : s.policy.classes[c].kind ≠ .unused
  fresh : ∀ (id : RecId) (r : CallRecord), s.rec? id = some r →
    ¬ (r.isLive = true ∧ r.owner = p ∧ r.ref = a.ref)
  notBarred : s.isBarred c = false
  paced : s.policy.classes[c].kind = .general → 0 < s.pacing.classes[c].allowance
  room : if s.policy.classes[c].kind = .general then 33 ≤ s.freeRecords else 1 ≤ s.freeRecords

/-- A WAITING record of the same or a more urgent level blocks an arrival of level `l` (R51). -/
def Blocks (s : State) (l : Level) : Prop :=
  ∃ (id : RecId) (r : CallRecord), s.rec? id = some r ∧ r.isWaiting = true ∧ r.level ≤ l

end Sys2Proof.Machine
end

