-- ==== Sys2Proof/Certificates/Slice0/Obligations.lean ====
section
/-! DEFINITION. The statements about the JT416, each a proposition that names the rules of spec/ it formalises. A
statement about a request has the state that the engine takes it in as `s1` (`engineTake`), which R189 fixes. -/

open Sys2Proof Sys2Proof.Machine

/-! The queue of commands, the engine and its arbiter (R189). -/

/-- A step runs the command at the front of the queue on the state with the rest of the queue, and on an empty queue
the part idles. The queue is the model's own (log 2). -/
def Obligations.StepRunsFrontCommand : Prop :=
  ∀ (c : Instr) (rest : List Instr) (s : State),
    step { s with pending := c :: rest } = exec c { s with pending := rest } ∧
    step { s with pending := [] } = .next { s with pending := [] }

/-- R189: while the engine is free the arbiter chooses a port with a candidate request, an urgent one where there is
one, and among those the first in the order that begins at the pointer; it chooses whenever there is a candidate. -/
def Obligations.ArbiterPrefersUrgentThenPointerOrder : Prop :=
  ∀ s : State,
    (∀ (p : Port) (f : Frame),
      arbiterChoice s = some (p, f) ↔
        s.resetLow = false ∧ (∀ q : Port, s.ports[q].resetSeq = none) ∧ s.candidate? p = some f ∧
        (∀ (q : Port) (g : Frame), s.candidate? q = some g → s.isUrgent g = true → s.isUrgent f = true) ∧
        (∀ (q : Port) (g : Frame), s.candidate? q = some g → s.isUrgent g = s.isUrgent f →
          (p - s.pointer).val ≤ (q - s.pointer).val)) ∧
    (s.resetLow = false → (∀ q : Port, s.ports[q].resetSeq = none) →
      (∃ (q : Port) (g : Frame), s.candidate? q = some g) → ∃ c, arbiterChoice s = some c)

/-- A request command is the engine's step (log 1). The engine takes the arbiter's choice and moves the pointer past
its port, and a command that is not the choice changes nothing (log 3). While no request waits at any port, a port
that is in use and has a place hands the request in by a transaction of 96 clocks, which also delivers a response
that is due and clears a REJECT that its summary shows (R181 to R183), and it is chosen at once (R189). -/
def Obligations.EngineTakesTheChosenRequest : Prop :=
  (∀ (s : State) (p r : Port) (f : Frame) (tag : Byte) (q : Request),
    arbiterChoice s = some (r, f) →
      (r = p ∧ f.b1 = tag ∧ decodeRequest f = q → engineTake p tag q s = some { s with pointer := p + 1 }) ∧
      (¬ (r = p ∧ f.b1 = tag ∧ decodeRequest f = q) → exec (q.command p tag) s = .next s)) ∧
  (∀ (s : State) (p : Port) (tag : Byte) (q : Request),
    q.wf = true → s.resetLow = false → (∀ r : Port, s.ports[r].resetSeq = none) →
    (∀ r : Port, s.candidate? r = none) → s.ports[p].prstLow = false → s.ports[p].transaction = none →
    s.ports[p].inflight.length < Config.inFlightLimit →
      engineTake p tag q s = some (({ s with pointer := p + 1 } : State).updPort p fun ps =>
        { ps with
          inflight := (if ps.headResponse?.isSome then ps.inflight.tail else ps.inflight) ++
            [{ frame := encodeRequest tag q, executed := false }]
          responses := if ps.headResponse?.isSome then ps.responses.tail else ps.responses
          reject := false }))

/-- The request table of R186: the frame of every request decodes to it, with every argument at every value, carries
its tag, and is not NULL. -/
def Obligations.RequestFramesRoundTrip : Prop :=
  ∀ (tag : Byte) (q : Request), q.wf = true →
    decodeRequest (encodeRequest tag q) = q ∧ (encodeRequest tag q).b1 = tag ∧ (encodeRequest tag q).b0 ≠ 0

/-- R187: a request with an argument that is out of range and cannot be clamped, and one with an unknown code, is
answered BAD_REQUEST with the number of the first such byte, and changes no state. -/
def Obligations.BadRequestChangesNothing : Prop :=
  ∀ (s s1 : State) (p : Port) (tag : Byte),
    (∀ (q : Request) (k : Nat), q.firstBadByte? = some k → engineTake p tag q s = some s1 →
      exec (q.command p tag) s = .next (s1.respond p .badRequest [byteOf k])) ∧
    (∀ code : Byte, engineTake p tag (.unknown code) s = some s1 →
      exec (.unknownRequestCode p tag code) s = .next (s1.respond p .badRequest [0]))

/-- No command stops the part, in any state: a request that is refused is answered (R58, R143, R187), and an event that
does not stand changes nothing (log 3). -/
def Obligations.NoCommandStopsThePart : Prop :=
  ∀ (i : Instr) (s : State), ∃ t : State, exec i s = .next t

/-! Admission (chapter 3). -/

/-- Steps 1 to 6 and 10 of R43: an ADMIT that is refused is answered by the first test that fails, in the order of the
table, with the data of R59. From step 2 on its attempt is counted (R45), and nothing else changes (R58). That the FREE
records of TABLE_FULL take two bytes and the blocked flag of CONGESTED a byte alone is the model's reading of R188
(log 8). -/
def Obligations.AdmitRefusedByFirstFailingStep : Prop :=
  ∀ (s s1 : State) (p : Port) (tag : Byte) (a : AdmitArgs) (c : ClassId),
    engineTake p tag (.admitCall a) s = some s1 → classOf? a.cls = some c → TableBooks s1 →
    let e := s1.policy.classes[c]
    let counted := s1.updPacing c fun k => { k with attempts := min 65535 (k.attempts + 1) }
    let refused := fun (r : ResultCode) (bs : List Byte) =>
      exec (.admitCall p tag a) s = .next (counted.respond p r bs)
    let fresh := ∀ (id : RecId) (r : CallRecord), s1.rec? id = some r →
      ¬ (r.isLive = true ∧ r.owner = p ∧ r.ref = a.ref)
    (e.kind = .unused → exec (.admitCall p tag a) s = .next (s1.respond p .unusedClass [])) ∧
    (e.kind ≠ .unused → ∀ (id : RecId) (r : CallRecord), s1.rec? id = some r → r.isLive = true → r.owner = p →
      r.ref = a.ref → refused .duplicate (numBytes2 id)) ∧
    (e.kind ≠ .unused → fresh → e.kind ≠ .emergency → s1.isBarred c = true →
      refused .barred [flagsByte (s1.barFlags c)]) ∧
    (e.kind = .general → fresh → s1.isBarred c = false → s1.pacing.classes[c].allowance = 0 →
      refused .paced [byteOf s1.pacing.countdown]) ∧
    (e.kind ≠ .unused → fresh → s1.isBarred c = false →
      (e.kind = .general → 0 < s1.pacing.classes[c].allowance) →
      (if e.kind = .general then s1.freeRecords < 33 else s1.freeRecords = 0) →
      refused .tableFull (numBytes2 s1.freeRecords)) ∧
    (PassesChecks s1 p a c → (Blocks s1 e.level ∨ fits e.kind e.u s1.pool = false) →
      (e.isCapable = false ∨ Blocks s1 e.level ∨ 128 ≤ s1.wait.count ∨ selectVictims s1 e.level e.u = none) →
      ((s1.activeRate c).mayWait = true → a.nowait = false → 128 ≤ s1.wait.count →
        refused .listFull [byteOf s1.wait.count]) ∧
      ((s1.activeRate c).mayWait = false ∨ a.nowait = true → ∀ blocked : Bool,
        (blocked = true ↔ Blocks s1 e.level) →
        refused .congested (numBytes2 s1.pool.free ++ [flagsByte [blocked]])))

/-- Step 7 of R43 (R52): an ADMIT that passes the checks, is not blocked and fits is ADMITTED: the lowest-numbered FREE
record becomes a holding of u units, taken from free, at the tail of the holding order list, its setup timer at
hold × 100 ticks; its class consumes allowance, and EXHAUSTED is evaluated. -/
def Obligations.AdmitTakesFreeUnitsDirectly : Prop :=
  ∀ (s s1 : State) (p : Port) (tag : Byte) (a : AdmitArgs) (c : ClassId),
    engineTake p tag (.admitCall a) s = some s1 → classOf? a.cls = some c → TableBooks s1 → PassesChecks s1 p a c →
    let e := s1.policy.classes[c]
    ¬ Blocks s1 e.level → fits e.kind e.u s1.pool = true →
    ∃ id : RecId, id < 1024 ∧ s1.rec? id = none ∧ (∀ j : RecId, j < id → s1.rec? j ≠ none) ∧
      let base : State := { s1 with
        table := {
          records := putRec s1.table.records id
            { owner := p, ref := a.ref, cls := c, kind := e.kind, level := e.level, vulnerable := e.vulnerable,
              continuous := e.continuous, u := e.u, v := e.v, hold := e.hold, notice := none
              state := .holding (if e.continuous then .continuous else .setup (e.hold * 100)) }
          holdings := s1.table.holdings ++ [id]
          classCount := s1.table.classCount.set c (s1.table.classCount[c] + 1) }
        pool.free := s1.pool.free - e.u
        pacing.classes := s1.pacing.classes.set c
          { s1.pacing.classes[c] with attempts := min 65535 (s1.pacing.classes[c].attempts + 1) } }
      exec (.admitCall p tag a) s = .next ((evalExhausted (consume c e.kind base)).respond p .admitted
        (numBytes2 id ++ [if e.continuous then 5 else 3, byteOf e.u] ++
          numBytes2 (if e.kind = .general then s1.pacing.classes[c].allowance - 1 else 0)))

/-- Step 8 of R43 (R54): an ADMIT that does not fit, is not blocked, may pre-empt and finds a place in the wait list and
victims becomes a collector of every free unit in the lowest-numbered FREE record, at the tails of its level list and
of the arrival order, in a collector slot; its victims are made in selection order, and EXHAUSTED is evaluated. -/
def Obligations.AdmitStartsPreemption : Prop :=
  ∀ (s s1 : State) (p : Port) (tag : Byte) (a : AdmitArgs) (c : ClassId) (victims : List RecId) (slot : Fin 8),
    engineTake p tag (.admitCall a) s = some s1 → classOf? a.cls = some c → TableBooks s1 → PassesChecks s1 p a c →
    let e := s1.policy.classes[c]
    ¬ Blocks s1 e.level → fits e.kind e.u s1.pool = false →
    (e.kind = .emergency ∨ e.kind = .priority ∧ e.preempt = true) → s1.wait.count < 128 →
    s1.emptySlot? = some slot → selectVictims s1 e.level e.u = some victims →
    ∃ id : RecId, id < 1024 ∧ s1.rec? id = none ∧ (∀ j : RecId, j < id → s1.rec? j ≠ none) ∧
      let limit := (s1.activeRate c).waitLimit
      let base : State := { s1 with
        table := {
          records := putRec s1.table.records id
            { owner := p, ref := a.ref, cls := c, kind := e.kind, level := e.level, vulnerable := e.vulnerable,
              continuous := e.continuous, u := e.u, v := e.v, hold := e.hold, notice := none
              state := .collecting { waitLimit := limit, need := e.u, deadline := limit * 10, waited := 0 }
                s1.pool.free victims }
          holdings := s1.table.holdings
          classCount := s1.table.classCount.set c (s1.table.classCount[c] + 1) }
        wait := { s1.wait with
          levels := s1.wait.levels.set e.level (s1.wait.levels[e.level] ++ [id])
          arrival := s1.wait.arrival ++ [id]
          count := s1.wait.count + 1 }
        slots := s1.slots.set slot (some id)
        pool := { s1.pool with free := 0, collected := s1.pool.collected + s1.pool.free }
        pacing.classes := s1.pacing.classes.set c
          { s1.pacing.classes[c] with attempts := min 65535 (s1.pacing.classes[c].attempts + 1) } }
      exec (.admitCall p tag a) s = .next ((evalExhausted (makeVictims id victims base)).respond p .collecting
        (numBytes2 id ++ [byteOf e.u, byteOf s1.pool.free, byteOf victims.length] ++ numBytes2 (limit * 10)))

/-- Step 9 of R43 (R55, R56): an ADMIT that finds no units and may wait becomes WAITING in the lowest-numbered FREE
record, at the tails of its level list and of the arrival order, and its class consumes allowance. The records ahead
are the WAITING records at its level and at the more urgent ones (R59). -/
def Obligations.AdmitEntersWaitList : Prop :=
  ∀ (s s1 : State) (p : Port) (tag : Byte) (a : AdmitArgs) (c : ClassId),
    engineTake p tag (.admitCall a) s = some s1 → classOf? a.cls = some c → TableBooks s1 → OrderBooks s1 →
    PassesChecks s1 p a c →
    let e := s1.policy.classes[c]
    (Blocks s1 e.level ∨ fits e.kind e.u s1.pool = false) →
    (e.isCapable = false ∨ Blocks s1 e.level ∨ selectVictims s1 e.level e.u = none) →
    (s1.activeRate c).mayWait = true → a.nowait = false → s1.wait.count < 128 →
    ∃ id : RecId, id < 1024 ∧ s1.rec? id = none ∧ (∀ j : RecId, j < id → s1.rec? j ≠ none) ∧
      let limit := (s1.activeRate c).waitLimit
      let ahead := (s1.table.records.filter fun x => x.2.isWaiting && decide (x.2.level ≤ e.level)).length
      let base : State := { s1 with
        table := {
          records := putRec s1.table.records id
            { owner := p, ref := a.ref, cls := c, kind := e.kind, level := e.level, vulnerable := e.vulnerable,
              continuous := e.continuous, u := e.u, v := e.v, hold := e.hold, notice := none
              state := .waiting { waitLimit := limit, need := e.u, deadline := limit * 10, waited := 0 } }
          holdings := s1.table.holdings
          classCount := s1.table.classCount.set c (s1.table.classCount[c] + 1) }
        wait := { s1.wait with
          levels := s1.wait.levels.set e.level (s1.wait.levels[e.level] ++ [id])
          arrival := s1.wait.arrival ++ [id]
          count := s1.wait.count + 1 }
        pacing.classes := s1.pacing.classes.set c
          { s1.pacing.classes[c] with attempts := min 65535 (s1.pacing.classes[c].attempts + 1) } }
      exec (.admitCall p tag a) s = .next ((consume c e.kind base).respond p .waiting
        (numBytes2 id ++ [byteOf e.u] ++ numBytes2 (limit * 10) ++ [byteOf ahead]))

/-- R49 and R117: an accepted GENERAL arrival consumes one unit of its class's allowance; the last unit of a ONESHOT
class sets its exhausted flag and latches CLASS_SPENT at every port whose PRST# is high. Other kinds consume nothing,
and nothing else changes. -/
def Obligations.ConsumptionSpendsOneUnit : Prop :=
  ∀ (s : State) (c : ClassId) (k : Kind),
    (k ≠ .general → consume c k s = s) ∧
    (k = .general →
      let last := (s.activeRate c).mode = .oneshot ∧ s.pacing.classes[c].allowance = 1
      consume c k s = { s with
        pacing.classes := s.pacing.classes.set c { s.pacing.classes[c] with
          allowance := s.pacing.classes[c].allowance - 1
          exhausted := if last then true else s.pacing.classes[c].exhausted }
        ports := Vector.ofFn fun p : Port =>
          if last ∧ s.ports[p].prstLow = false then
            { s.ports[p] with events := s.ports[p].events ||| 1#9 <<< 6 } else s.ports[p] })

/-! Requests on records (chapters 2 and 4). -/

/-- R30, R34, R35 and R77: a RELEASE, SETTLE or CANCEL of a FREE record or with another reference is answered NOT_FOUND, of
another port's record NOT_OWNER, and in a state the request does not act on WRONG_STATE. Nothing else changes. -/
def Obligations.RecordRequestRefusals : Prop :=
  ∀ (s s1 : State) (p : Port) (tag : Byte) (a : RecordArgs) (q : Request),
    (q = .release a ∨ q = .cancel a ∨ q = .settle a) → engineTake p tag q s = some s1 → a.id.toNat < 1024 →
    let refused := fun (r : ResultCode) => exec (q.command p tag) s = .next (s1.respond p r [])
    (s1.rec? a.id.toNat = none → refused .notFound) ∧
    (∀ r : CallRecord, s1.rec? a.id.toNat = some r →
      (r.ref ≠ a.ref → refused .notFound) ∧
      (r.ref = a.ref → r.owner ≠ p → refused .notOwner) ∧
      (r.ref = a.ref → r.owner = p →
        (q = .release a → (r.isWaiting = true ∨ r.isCollecting = true ∨ r.state = .expired) → refused .wrongState) ∧
        (q = .cancel a → (r.isHolding = true ∨ r.state = .reclaimed) → refused .wrongState) ∧
        (q = .settle a →
          (∀ n : Nat, r.state ≠ .holding (.setup n)) →
          (∀ (n g : Nat) (c : RecId), r.state ≠ .preemptPending (.setup n) g c) → refused .wrongState)))

/-- R31, R32 and R34: a RELEASE that passes its checks frees the record. The units of a holding are returned with no
returning record, those of a victim first to its collector, and the answer is DONE with their number; a RECLAIMED
record is answered LATE, and no units move. -/
def Obligations.ReleaseFreesTheRecord : Prop :=
  ∀ (s s1 : State) (p : Port) (tag : Byte) (a : RecordArgs) (r : CallRecord),
    engineTake p tag (.release a) s = some s1 → a.id.toNat < 1024 → s1.rec? a.id.toNat = some r → r.ref = a.ref →
    r.owner = p →
    (∀ h : HoldState, r.state = .holding h →
      exec (.release p tag a) s = .next ((distribute none (h.units r.u r.v) (freeRecord a.id.toNat s1)).respond p .done
        (numBytes2 a.id.toNat ++ [byteOf (h.units r.u r.v)]))) ∧
    (∀ (h : HoldState) (g : Nat) (c : RecId), r.state = .preemptPending h g c →
      exec (.release p tag a) s =
        .next ((distribute (some c) (h.units r.u r.v) (freeRecord a.id.toNat s1)).respond p .done
          (numBytes2 a.id.toNat ++ [byteOf (h.units r.u r.v)]))) ∧
    (r.state = .reclaimed →
      exec (.release p tag a) s =
        .next ((freeRecord a.id.toNat s1).respond p .late (numBytes2 a.id.toNat ++ [0])))

/-- R75, R76 and R77: a CANCEL that passes its checks frees the record. No unit of a WAITING record moves; a collector
leaves the wait list and its slot, the collected total falls, its victims are reprieved in order, it is freed, and its
collected units are returned with no returning record; an EXPIRED record is answered LATE. -/
def Obligations.CancelWithdrawsTheRecord : Prop :=
  ∀ (s s1 : State) (p : Port) (tag : Byte) (a : RecordArgs) (r : CallRecord),
    engineTake p tag (.cancel a) s = some s1 → a.id.toNat < 1024 → s1.rec? a.id.toNat = some r → r.ref = a.ref →
    r.owner = p →
    (∀ w : WaitFields, r.state = .waiting w →
      exec (.cancel p tag a) s =
        .next ((freeRecord a.id.toNat s1).respond p .done (numBytes2 a.id.toNat ++ [0]))) ∧
    (∀ (w : WaitFields) (n : Nat) (vs : List RecId), r.state = .collecting w n vs →
      let left := freeSlot a.id.toNat (leaveWait a.id.toNat r.level
        { s1 with pool.collected := s1.pool.collected - n })
      exec (.cancel p tag a) s =
        .next ((distribute none n (freeRecord a.id.toNat
          (reprieveAll vs (left.setRec a.id.toNat { r with state := .expired })))).respond p .done
            (numBytes2 a.id.toNat ++ [byteOf n]))) ∧
    (r.state = .expired →
      exec (.cancel p tag a) s =
        .next ((freeRecord a.id.toNat s1).respond p .late (numBytes2 a.id.toNat ++ [0])))

/-- R28, R29 and R35: a SETTLE and the expiry of a setup timer have the same effect. SETUP becomes SUSTAIN, a victim's
prior state SETUP becomes SUSTAIN with its grace and collector kept, and u − v units are returned, for a victim first
to its collector. An expiry that does not stand changes nothing (log 3). -/
def Obligations.SetupEndsBySettleOrExpiry : Prop :=
  (∀ (s s1 : State) (p : Port) (tag : Byte) (a : RecordArgs) (r : CallRecord),
    engineTake p tag (.settle a) s = some s1 → a.id.toNat < 1024 → s1.rec? a.id.toNat = some r → r.ref = a.ref →
    r.owner = p →
    (∀ n : Nat, r.state = .holding (.setup n) →
      exec (.settle p tag a) s =
        .next ((distribute none (r.u - r.v) (s1.setRec a.id.toNat { r with state := .holding .sustain })).respond p
          .done (numBytes2 a.id.toNat ++ [byteOf r.v, byteOf (r.u - r.v)]))) ∧
    (∀ (n g : Nat) (c : RecId), r.state = .preemptPending (.setup n) g c →
      exec (.settle p tag a) s =
        .next ((distribute (some c) (r.u - r.v)
          (s1.setRec a.id.toNat { r with state := .preemptPending .sustain g c })).respond p
            .done (numBytes2 a.id.toNat ++ [byteOf r.v, byteOf (r.u - r.v)])))) ∧
  (∀ (s : State) (id : RecId),
    (∀ r : CallRecord, s.resetLow = false → s.rec? id = some r → r.state = .holding (.setup 0) →
      exec (.setupTimerExpiry id) s =
        .next (distribute none (r.u - r.v) (s.setRec id { r with state := .holding .sustain }))) ∧
    (∀ (r : CallRecord) (g : Nat) (c : RecId), s.resetLow = false → s.rec? id = some r →
      r.state = .preemptPending (.setup 0) g c →
      exec (.setupTimerExpiry id) s =
        .next (distribute (some c) (r.u - r.v) (s.setRec id { r with state := .preemptPending .sustain g c }))) ∧
    ((s.resetLow = true ∨ ∀ r : CallRecord, s.rec? id = some r → r.state ≠ .holding (.setup 0) ∧
        ∀ (g : Nat) (c : RecId), r.state ≠ .preemptPending (.setup 0) g c) →
      exec (.setupTimerExpiry id) s = .next s))

/-- R98, R72 and R73: a grace timer at 0 reclaims its victim, which leaves its collector's victim list and the holding
order list and carries a RECLAIMED notice, and its units return first to the collector. A deadline at 0 makes a WAITING
record EXPIRED with no unit moving, and ends a collection, whose units return with no returning record. An expiry that
does not stand changes nothing (log 3). -/
def Obligations.GraceAndDeadlineExpiries : Prop :=
  ∀ (s : State) (id : RecId),
    (s.resetLow = true ∨ s.rec? id = none →
      exec (.graceExpiry id) s = .next s ∧ exec (.deadlineExpiry id) s = .next s) ∧
    (∀ r : CallRecord, s.resetLow = false → s.rec? id = some r →
      (∀ (h : HoldState) (c : RecId), r.state = .preemptPending h 0 c →
        exec (.graceExpiry id) s =
          .next (distribute (some c) (h.units r.u r.v) (postNotice id .reclaimed (leaveHoldings id
            ((leaveVictims id c s).setRec id { r with state := .reclaimed }))))) ∧
      ((∀ (h : HoldState) (c : RecId), r.state ≠ .preemptPending h 0 c) → exec (.graceExpiry id) s = .next s) ∧
      (∀ w : WaitFields, r.state = .waiting w → w.deadline = 0 →
        exec (.deadlineExpiry id) s =
          .next (postNotice id .expired ((leaveWait id r.level s).setRec id { r with state := .expired }))) ∧
      (∀ (w : WaitFields) (n : Nat) (vs : List RecId), r.state = .collecting w n vs → w.deadline = 0 →
        exec (.deadlineExpiry id) s =
          .next (distribute none n (postNotice id .expired (reprieveAll vs
            ((freeSlot id (leaveWait id r.level { s with pool.collected := s.pool.collected - n })).setRec id
              { r with state := .expired }))))) ∧
      ((∀ w : WaitFields, r.state = .waiting w → w.deadline ≠ 0) →
        (∀ (w : WaitFields) (n : Nat) (vs : List RecId), r.state = .collecting w n vs → w.deadline ≠ 0) →
        exec (.deadlineExpiry id) s = .next s))

/-- R25: a freed record is FREE and stands in no list; the other records keep their fields but for the victim list of its
collector, the other entries of every list keep their order, and the count of its class falls by 1. -/
def Obligations.FreedRecordLeavesEveryList : Prop :=
  ∀ (s : State) (id : RecId) (r : CallRecord),
    TableBooks s → OrderBooks s → NoticeBooks s → s.rec? id = some r →
    let t := freeRecord id s
    t.rec? id = none ∧
    (∀ (j : RecId) (x : CallRecord), j ≠ id → s.rec? j = some x →
      (∀ (w : WaitFields) (n : Nat) (vs : List RecId) (h : HoldState) (g : Nat),
        x.state = .collecting w n vs → r.state = .preemptPending h g j →
          t.rec? j = some { x with state := .collecting w n (vs.filter (· != id)) }) ∧
      ((x.isCollecting = false ∨ ∀ (h : HoldState) (g : Nat), r.state ≠ .preemptPending h g j) →
        t.rec? j = some x)) ∧
    (∀ j : RecId, s.rec? j = none → t.rec? j = none) ∧
    t.table.holdings = s.table.holdings.filter (· != id) ∧
    t.wait.arrival = s.wait.arrival.filter (· != id) ∧
    (∀ l : Level, t.wait.levels[l] = s.wait.levels[l].filter (· != id)) ∧
    t.wait.count = t.wait.arrival.length ∧
    (∀ p : Port, t.ports[p].notices = s.ports[p].notices.filter (· != id)) ∧
    (∀ c : ClassId, t.table.classCount[c] = s.table.classCount[c] - (if c = r.cls then 1 else 0)) ∧
    (∀ i : Fin 8, t.slots[i] = if r.isCollecting = true ∧ s.slots[i] = some id then none else s.slots[i]) ∧
    t.pool = s.pool ∧ t.wait.stalled = s.wait.stalled ∧ t.wait.boundaryDue = s.wait.boundaryDue ∧
    (∀ (p : Port) (e : Fin 9), e.val ≠ 2 → t.ports[p].events.getLsbD e.val = s.ports[p].events.getLsbD e.val) ∧
    (∀ p : Port, t.ports[p].stalledArm = s.ports[p].stalledArm ∧ t.ports[p].exhaustedArm = s.ports[p].exhaustedArm) ∧
    NoticeBooks t ∧ Untouched s t

/-! Units (chapters 1, 4 and 5). -/

/-- R9 and R10: where no record is COLLECTING, a return is retired against the debt, unit for unit, and what remains is
made free; DEBT_CLEAR is latched at the ports when the debt comes to 0 by it, Feff follows C (R5), service follows, and
EXHAUSTED is evaluated once at the end. -/
def Obligations.ReturnRetiresDebtThenFrees : Prop :=
  ∀ (s : State) (n : Nat) (from? : Option RecId),
    (∀ (id : RecId) (r : CallRecord), s.rec? id = some r → r.isCollecting = false) →
    let debt := s.pool.capacity - s.pool.target
    let retired := min n debt
    let placed : State := { s with
      pool.capacity := s.pool.capacity - retired
      pool.free := s.pool.free + (n - retired)
      pool.feff := if retired = 0 then s.pool.feff
        else min s.activeLimits.floor ((s.pool.capacity - retired) / 2) }
    distribute from? n s =
      evalExhausted (service (if 0 < retired ∧ retired = debt then raiseAll .debtClear placed else placed))

/-- R7, R8, R100 and R102: returned units go to a collector up to its remaining need. One that is still short only has
them added to its collected count. One that reaches its need becomes a holding at the tail of the holding order list,
leaves the wait list and its slot, and carries a GRANTED notice; each of its victims returns to its prior state with the
units it holds; and no unit passes through free. The collector of the returning victim comes first, and after it the
collectors in arrival order; what is left goes on as a return with no returning record. -/
def Obligations.CollectorsTakeTheirNeedThenComplete : Prop :=
  (∀ (s : State) (id : RecId) (r : CallRecord) (w : WaitFields) (n c : Nat) (vs : List RecId),
    s.rec? id = some r → r.state = .collecting w c vs → c < w.need →
    (n < w.need - c →
      giveTo id n s = ({ s with pool.collected := s.pool.collected + n }.setRec id
        { r with state := .collecting w (c + n) vs }, 0)) ∧
    (w.need - c ≤ n →
      let t := (giveTo id n s).1
      (giveTo id n s).2 = n - (w.need - c) ∧
      t.pool = { s.pool with collected := s.pool.collected - c } ∧
      (∃ k : NoticeKind, t.rec? id = some { r with
        state := .holding (if r.continuous then .continuous else .setup (r.hold * 100)), notice := some k } ∧
        (∀ old : NoticeKind, r.notice = some old → old.final = false → k = .granted) ∧
        (r.notice = none → k = .granted)) ∧
      t.table.holdings = s.table.holdings ++ [id] ∧
      t.wait.arrival = s.wait.arrival.filter (· != id) ∧
      t.wait.count = s.wait.count - 1 ∧
      (∀ i : Fin 8, t.slots[i] = if s.slots[i] = some id then none else s.slots[i]) ∧
      (∀ (v : RecId) (x : CallRecord) (h : HoldState) (g : Nat) (k : RecId), v ∈ vs → v ≠ id → s.rec? v = some x →
        x.state = .preemptPending h g k →
          ∃ m : Option NoticeKind, t.rec? v = some { x with state := .holding h, notice := m } ∧
            (∀ old : NoticeKind, x.notice = some old → old.final = false → m = some .reprieved) ∧
            (x.notice = none → m = some .reprieved)) ∧
      (∀ v : RecId, v ∉ vs → v ≠ id → t.rec? v = s.rec? v) ∧
      Untouched s t)) ∧
  (∀ (s : State) (id : RecId) (r : CallRecord) (w : WaitFields) (n c : Nat) (vs : List RecId),
    s.rec? id = some r → r.state = .collecting w c vs → c < w.need →
    let given := { s with pool.collected := s.pool.collected + n }.setRec id { r with state := .collecting w (c + n) vs }
    let first := (s.wait.arrival.find? fun j => (s.rec? j).any (·.isCollecting)) = some id
    (n < w.need - c →
      distribute (some id) n s = evalExhausted (service given) ∧
      (first → 0 < n → distribute none n s = evalExhausted (service given))) ∧
    (w.need - c ≤ n →
      distribute (some id) n s = distribute none (n - (w.need - c)) (giveTo id n s).1 ∧
      (first → distribute none n s = distribute none (n - (w.need - c)) (giveTo id n s).1)))

/-- R68 and R69: service takes the first WAITING record in service order. While it fits it is granted: its need leaves
free, it becomes a holding at the tail of the holding order list and leaves the wait list, and the run begins again with
the record that is now first. The run ends at the first record that does not fit and when none waits. -/
def Obligations.ServiceGrantsInOrderUntilMisfit : Prop :=
  ∀ s : State, OrderBooks s → PoolBooks s →
    (s.pool.free = 0 ∨ waitingOrder s = [] → service s = s) ∧
    (∀ (id : RecId) (rest : List RecId) (r : CallRecord) (w : WaitFields),
      0 < s.pool.free → waitingOrder s = id :: rest → s.rec? id = some r → r.state = .waiting w →
      (fits r.kind w.need s.pool = false → service s = s) ∧
      (fits r.kind w.need s.pool = true →
        service s = service (grant id s) ∧ waitingOrder (grant id s) = rest ∧
        grant id s = postNotice id .granted ({ s with
          pool.free := s.pool.free - w.need
          table.records := putRec s.table.records id { r with
            state := .holding (if r.continuous then .continuous else .setup (r.hold * 100)) }
          table.holdings := s.table.holdings ++ [id]
          wait.levels := s.wait.levels.set r.level (s.wait.levels[r.level].filter (· != id))
          wait.arrival := s.wait.arrival.filter (· != id)
          wait.count := s.wait.count - 1 })))

/-- R91, R92 and R93: the candidates are the holdings that are no victims, vulnerable, at a level number above the
requester's and with units, by falling level number and within a level newest first. Selection succeeds exactly when a
slot is empty and some first 1 to 8 candidates cover the need together with free, and then takes the fewest such. -/
def Obligations.VictimSelectionTakesFewestFirstCandidates : Prop :=
  ∀ (s : State) (l : Level) (n : Nat), s.table.holdings.Nodup → s.pool.free < n →
    let cands := candidates s l
    (∀ (id : RecId) (units : Nat), (id, units) ∈ cands ↔
      id ∈ s.table.holdings ∧ ∃ (r : CallRecord) (h : HoldState), s.rec? id = some r ∧ r.state = .holding h ∧
        r.vulnerable = true ∧ l < r.level ∧ units = h.units r.u r.v ∧ 0 < units) ∧
    (cands.Pairwise fun a b => ∀ x y : CallRecord, s.rec? a.1 = some x → s.rec? b.1 = some y →
      y.level < x.level ∨ y.level = x.level ∧ s.table.holdings.idxOf b.1 < s.table.holdings.idxOf a.1) ∧
    (∀ vs : List RecId, selectVictims s l n = some vs ↔
      (∃ i : Fin 8, s.slots[i] = none) ∧
      ∃ k : Nat, 1 ≤ k ∧ k ≤ 8 ∧ k ≤ cands.length ∧ vs = (cands.take k).map (·.1) ∧
        n ≤ s.pool.free + ((cands.take k).map (·.2)).sum ∧
        s.pool.free + ((cands.take (k - 1)).map (·.2)).sum < n)

/-- R95 and R96: the requester becomes a collector of every free unit in an empty slot, and the selected records become
victims in selection order; each keeps its units and its place, with the grace of the active profile and a PREEMPT
notice. EXHAUSTED is evaluated last. -/
def Obligations.CollectorAndVictimsAreMade : Prop :=
  (∀ (s : State) (id : RecId) (r : CallRecord) (w : WaitFields) (vs : List RecId) (slot : Fin 8),
    s.emptySlot? = some slot →
      makeCollector id r w vs s = evalExhausted (makeVictims id vs { s with
        table.records := putRec s.table.records id { r with state := .collecting w s.pool.free vs }
        slots := s.slots.set slot (some id)
        pool := { s.pool with free := 0, collected := s.pool.collected + s.pool.free } })) ∧
  (∀ (s : State) (c : RecId) (ids : List RecId), ids.Nodup → NoticeBooks s →
    let t := makeVictims c ids s
    (∀ (id : RecId) (r : CallRecord) (h : HoldState), id ∈ ids → s.rec? id = some r → r.state = .holding h →
      t.rec? id = some { r with
        state := .preemptPending h s.activeLimits.grace c, notice := some .preempt }) ∧
    (∀ id : RecId, (id ∉ ids ∨ ∀ (r : CallRecord) (h : HoldState), s.rec? id = some r → r.state ≠ .holding h) →
      t.rec? id = s.rec? id) ∧
    t.pool = s.pool ∧ t.table.holdings = s.table.holdings ∧ t.table.classCount = s.table.classCount ∧
    t.wait = s.wait ∧ t.slots = s.slots ∧ Untouched s t ∧ NoticeBooks t ∧
    (∀ (p : Port) (i : RecId), i ∈ s.ports[p].notices → i ∈ t.ports[p].notices))

/-! Conditions, events and reports (chapters 1, 4 and 9). -/

/-- R15, R83, R171 and R173: EXHAUSTED is evaluated with its hysteresis, and STALLED by the stall test. A condition that
enters latches its event at the ports that are armed and clears their arm flags; one that leaves arms every port; one
that stays changes nothing. An edge event latches at the ports in its scope. A port whose PRST# is low latches
nothing. -/
def Obligations.ConditionsAndEventsReachThePorts : Prop :=
  (∀ s : State,
    let x := s.activeLimits.exhaust
    evalExhausted s =
      setExhausted (if s.pool.exhausted then decide (s.pool.free < 2 * x) else decide (s.pool.free < x)) s) ∧
  (∀ s : State, s.pool.exhausted = false →
    setExhausted true s = { s with
      pool.exhausted := true
      ports := Vector.ofFn fun p : Port =>
        if s.ports[p].prstLow = false ∧ s.ports[p].exhaustedArm = true then
          { s.ports[p] with events := s.ports[p].events ||| 1#9 <<< 1, exhaustedArm := false } else s.ports[p] }) ∧
  (∀ s : State, s.pool.exhausted = true →
    setExhausted false s = { s with
      pool.exhausted := false
      ports := Vector.ofFn fun p : Port => { s.ports[p] with exhaustedArm := true } }) ∧
  (∀ s : State,
    let stall := s.table.records.any fun e => e.2.isWaiting && e.2.kind == .emergency &&
      (match e.2.state with
        | .waiting w => decide (s.activeLimits.stall * 10 ≤ w.waited)
        | _ => false)
    (stall = s.wait.stalled → evalStalled s = s) ∧
    (s.wait.stalled = false → stall = true → evalStalled s = { s with
      wait.stalled := true
      ports := Vector.ofFn fun p : Port =>
        if s.ports[p].prstLow = false ∧ s.ports[p].stalledArm = true then
          { s.ports[p] with events := s.ports[p].events ||| 1#9 <<< 0, stalledArm := false } else s.ports[p] }) ∧
    (s.wait.stalled = true → stall = false → evalStalled s = { s with
      wait.stalled := false
      ports := Vector.ofFn fun p : Port => { s.ports[p] with stalledArm := true } })) ∧
  (∀ (s : State) (e : Event) (p : Port),
    setExhausted s.pool.exhausted s = s ∧
    raiseAll e s = { s with ports := Vector.ofFn fun q : Port =>
      if s.ports[q].prstLow = false then { s.ports[q] with events := s.ports[q].events ||| 1#9 <<< e.num }
      else s.ports[q] } ∧
    raiseOthers p e s = { s with ports := Vector.ofFn fun q : Port =>
      if q ≠ p ∧ s.ports[q].prstLow = false then { s.ports[q] with events := s.ports[q].events ||| 1#9 <<< e.num }
      else s.ports[q] })

/-- R166: a notice joins the tail of its owner's list, and NOTICE is pending; a notice that is not final is replaced in
place, and a final one is kept. R168 and R169: a FETCH_NOTICE on an empty list is answered NOT_FOUND with all zeros. Otherwise the oldest entry leaves
the list, the answer carries it as R188 packs it, read before it leaves, and a record with a final notice is freed;
nothing else of another record changes. NOTICE stays pending while the list is not empty (R172). -/
def Obligations.NoticesArePostedThenFetchedInOrder : Prop :=
  (∀ (s : State) (id : RecId) (r : CallRecord) (k : NoticeKind), s.rec? id = some r →
    (r.notice = none → postNotice id k s = (s.setRec id { r with notice := some k }).updPort r.owner fun ps =>
      { ps with notices := ps.notices ++ [id], events := ps.events ||| 1#9 <<< 2 }) ∧
    (∀ old : NoticeKind, r.notice = some old →
      (old = .reclaimed ∨ old = .expired → postNotice id k s = s) ∧
      (old ≠ .reclaimed → old ≠ .expired → postNotice id k s = s.setRec id { r with notice := some k }))) ∧
  (∀ (s s1 : State) (p : Port) (tag : Byte),
    engineTake p tag .fetchNotice s = some s1 → NoticeBooks s1 →
    (s1.ports[p].notices = [] → exec (.fetchNotice p tag) s = .next (s1.respond p .notFound [])) ∧
    (∀ (id : RecId) (rest : List RecId), s1.ports[p].notices = id :: rest →
      ∃ (r : CallRecord) (k : NoticeKind), s1.rec? id = some r ∧ r.notice = some k ∧
        let bytes := numBytes2 (k.code * 8192 + id) ++ bytes2 r.ref ++
          [byteOf (r.cls.val * 16 + r.state.code), byteOf r.unitsHeld] ++ numBytes2 rest.length
        ((k = .reclaimed ∨ k = .expired) →
          exec (.fetchNotice p tag) s = .next ((freeRecord id s1).respond p .done bytes)) ∧
        (k ≠ .reclaimed → k ≠ .expired →
          exec (.fetchNotice p tag) s = .next (((s1.setRec id { r with notice := none }).updPort p fun ps =>
            { ps with
              notices := rest
              events := if rest = [] then ps.events &&& ~~~(1#9 <<< 2) else ps.events }).respond p .done bytes))))

/-- R174 and R175: READ_EVENTS reports the pending set, the enable set, the conditions, the arm flags and the length of
the notice list, and empties the pending set but for NOTICE while a notice waits; SET_ENABLES replaces the enable set
of its own port by events 0 to 8 of its mask and reports it with the pending set, which stays. That each event set
takes two bytes of the answer, bit n for event n, is the model's reading of R188, whose words do not fix it (log 8). -/
def Obligations.EventsAreReadAndEnabled : Prop :=
  ∀ (s s1 : State) (p : Port) (tag : Byte) (mask : Half),
    (engineTake p tag .readEvents s = some s1 →
      exec (.readEvents p tag) s = .next ((s1.updPort p fun ps =>
        { ps with events := if ps.notices.isEmpty then 0 else 1#9 <<< 2 }).respond p .done
          (bytes2 (s1.ports[p].events.setWidth 16) ++ bytes2 (s1.ports[p].enables.setWidth 16) ++
            [flagsByte [s1.wait.stalled, s1.pool.exhausted, s1.ports[p].stalledArm, s1.ports[p].exhaustedArm]] ++
            numBytes2 s1.ports[p].notices.length))) ∧
    (engineTake p tag (.setEnables mask) s = some s1 →
      exec (.setEnables p tag mask) s = .next ((s1.updPort p fun ps =>
        { ps with enables := mask.setWidth 9 }).respond p .done
          (bytes2 ((mask.setWidth 9).setWidth 16) ++ bytes2 (s1.ports[p].events.setWidth 16))))

/-- R176, R185 and R186: the status summary. Attention is asserted when an event is both pending and enabled, the top
event is the lowest-numbered such event, or 15 without one, the notice count saturates at 31, and the free slots
leave out the request whose response the frame carries. -/
def Obligations.SummaryShowsThePort : Prop :=
  ∀ (s : State) (p : Port) (carries : Bool), s.pacing.level ≤ 3 →
    let ps := s.ports[p]
    (ps.attention = true ↔ ∃ e : Fin 9, ps.events.getLsbD e.val = true ∧ ps.enables.getLsbD e.val = true) ∧
    (ps.attention = false → ps.topEvent = 15) ∧
    (∀ e : Fin 9, ps.events.getLsbD e.val = true → ps.enables.getLsbD e.val = true →
      ps.topEvent ≤ e.val ∧ ps.events.getLsbD ps.topEvent = true ∧ ps.enables.getLsbD ps.topEvent = true) ∧
    (summary s p carries).toNat / 32768 = (if ps.attention then 1 else 0) ∧
    (summary s p carries).toNat / 2048 % 16 = ps.topEvent ∧
    (summary s p carries).toNat / 512 % 4 = s.pacing.level ∧
    (summary s p carries).toNat / 256 % 2 = (if ps.reject then 1 else 0) ∧
    (summary s p carries).toNat / 8 % 32 = min 31 ps.notices.length ∧
    (summary s p carries).toNat % 8 = 4 - (ps.inflight.length - (if carries then 1 else 0))

/-! Readings. -/

/-- R16, whole: READ_POOL at every port and in every window, the held total and the debt that software derives, and the
debt in READ_STATUS. -/
def Obligations.ReadPoolReportsFourQuantities : Prop :=
  ∀ (s s1 : State) (p : Port) (tag : Byte),
    (engineTake p tag .readPool s = some s1 →
      exec (.readPool p tag) s = .next (s1.respond p .done (numBytes2 s1.pool.capacity ++ numBytes2 s1.pool.target ++
        numBytes2 s1.pool.free ++ numBytes2 s1.pool.collected))) ∧
    (PoolBooks s1 → s1.heldTotal = s1.pool.capacity - s1.pool.free - s1.pool.collected) ∧
    s1.pool.debt = s1.pool.capacity - s1.pool.target ∧
    (engineTake p tag .readStatus s = some s1 →
      ∃ bs : List Byte, bs.length = 6 ∧
        exec (.readStatus p tag) s = .next (s1.respond p .done (bs ++ numBytes2 s1.pool.debt)))

/-- R194, whole: READ_IDENT in every state. -/
def Obligations.ReadIdentReportsThePart : Prop :=
  ∀ (s s1 : State) (p : Port) (tag : Byte), engineTake p tag .readIdent s = some s1 →
    exec (.readIdent p tag) s =
      .next (s1.respond p .done ([0x04, 0x16, 1, BitVec.ofNat 8 p.val] ++ [0x04, 0x00]))

/-- R37: a QUERY reads the record of any owner and changes nothing. A FREE record reads as all 0; another reads its state,
prior state, owner, class, call reference, units held, timer and related value as R188 packs them. -/
def Obligations.QueryReadsAnyRecord : Prop :=
  ∀ (s s1 : State) (p : Port) (tag : Byte) (id : Half),
    engineTake p tag (.query id) s = some s1 → id.toNat < 1024 →
    (s1.rec? id.toNat = none → exec (.query p tag id) s = .next (s1.respond p .done [])) ∧
    (∀ r : CallRecord, s1.rec? id.toNat = some r →
      let reads := fun (state prior units timer related : Nat) =>
        exec (.query p tag id) s = .next (s1.respond p .done
          ([byteOf (state * 16 + prior * 4 + r.owner.val), byteOf (r.cls.val * 16 + related / 256 % 4)] ++
            bytes2 r.ref ++ [byteOf units] ++ numBytes2 timer ++ [byteOf related]))
      (∀ w : WaitFields, r.state = .waiting w → reads 1 0 0 w.deadline w.need) ∧
      (∀ (w : WaitFields) (n : Nat) (vs : List RecId), r.state = .collecting w n vs → reads 2 0 0 w.deadline n) ∧
      (∀ n : Nat, r.state = .holding (.setup n) → reads 3 0 r.u n 0) ∧
      (r.state = .holding .sustain → reads 4 0 r.v 0 0) ∧
      (r.state = .holding .continuous → reads 5 0 r.u 0 0) ∧
      (∀ (n g : Nat) (c : RecId), r.state = .preemptPending (.setup n) g c → reads 6 1 r.u g c) ∧
      (∀ (g : Nat) (c : RecId), r.state = .preemptPending .sustain g c → reads 6 2 r.v g c) ∧
      (∀ (g : Nat) (c : RecId), r.state = .preemptPending .continuous g c → reads 6 3 r.u g c) ∧
      (r.state = .reclaimed → reads 7 0 0 0 0) ∧
      (r.state = .expired → reads 8 0 0 0 0))

/-- R130, R149, R156 and R193: READ_CLASS, READ_STATUS, READ_TIME and READ_POLICY report the values as they stand, packed
as R188 gives them, and change nothing. -/
def Obligations.ReadingsChangeNothing : Prop :=
  ∀ (s s1 : State) (p : Port) (tag : Byte),
    (∀ (b : Byte) (c : ClassId), b.toNat = c.val → engineTake p tag (.readClass b) s = some s1 →
      let k := s1.pacing.classes[c]
      exec (.readClass p tag b) s = .next (s1.respond p .done
        ([byteOf (s1.policy.classes[c].kind.code * 64 + (s1.activeRate c).mode.code * 16) |||
            flagsByte [s1.manualBar c, s1.windowBar c, k.exhausted]] ++
          numBytes2 k.allowance ++ numBytes2 k.closed ++ numBytes2 s1.table.classCount[c] ++
          [byteOf s1.pacing.countdown]))) ∧
    (engineTake p tag .readStatus s = some s1 →
      exec (.readStatus p tag) s = .next (s1.respond p .done
        ([byteOf (s1.pacing.level * 64 + s1.time.activeProfile.val * 16 + s1.time.state.code * 8),
            byteOf (windowCode s1.time.activeWindow)] ++ bytes2 s1.policy.generation ++
          [byteOf s1.wait.count, byteOf (s1.slots.toList.filter (·.isSome)).length] ++
          numBytes2 (s1.pool.capacity - s1.pool.target)))) ∧
    (engineTake p tag .readTime s = some s1 →
      exec (.readTime p tag) s = .next (s1.respond p .done
        ([byteOf (s1.time.state.code * 128 + s1.time.activeProfile.val * 32 + windowCode s1.time.activeWindow)] ++
          bytes4 s1.time.seconds ++
          numBytes2 (s1.time.tickInSecond * 512 + (BitVec.ofInt 9 s1.time.slew).toNat) ++
          [s1.time.ticks.setWidth 8]))) ∧
    (∀ (a : ReadPolicyArgs), engineTake p tag (.readPolicy a) s = some s1 →
      let reads := fun (bs : List Byte) =>
        exec (.readPolicy p tag a) s = .next (s1.respond p .done (bytes2 s1.policy.generation ++ bs))
      (∀ c : ClassId, a.item = 0 → a.arg1.toNat = c.val → reads (classBytes s1.policy.classes[c])) ∧
      (∀ (pr : ProfileId) (c : ClassId), a.item = 1 → a.arg1.toNat = pr.val → a.arg2.toNat = c.val →
        reads (rateBytes s1.policy.rates[pr][c])) ∧
      (∀ pr : ProfileId, a.arg1.toNat = pr.val →
        (a.item = 2 → reads (thresholdBytes s1.policy.thresholds[pr])) ∧
        (a.item = 3 → reads (limitBytes s1.policy.limits[pr]))) ∧
      (a.item = 4 → reads ([byteOf s1.policy.base.val] ++ bytes2 s1.policy.bars)) ∧
      (∀ w : WindowId, a.item = 5 → a.arg1.toNat = w.val →
        (a.arg2 = 0 → reads (windowTimingBytes s1.policy.windows[w] ++ bytes4 s1.policy.windows[w].start)) ∧
        (a.arg2 = 1 → reads ([byteOf s1.policy.windows[w].profile.val, byteOf s1.policy.windows[w].minimum] ++
          bytes2 s1.policy.windows[w].bars))))

/-! The policy image (chapters 7 and 8). -/

/-- R143: a guarded write in a locked window is answered LOCKED whatever its generation, else one of another generation
STALE, else a WRITE_CLASS that would change the kind of a class with records CLASS_LIVE, each with the current
generation; nothing else changes. That the active window and the record count fill bytes 6 and 7 as numbers of two
bytes, and that these bytes are 0 in STALE, is the model's reading of R188 (log 8). -/
def Obligations.GuardedWriteRefusals : Prop :=
  ∀ (s s1 : State) (p : Port) (tag : Byte) (q : Request) (g : Half),
    q.expectedGeneration? = some g → q.firstBadByte? = none → engineTake p tag q s = some s1 →
    let refused := fun (r : ResultCode) (bs : List Byte) =>
      exec (q.command p tag) s = .next (s1.respond p r (bytes2 s1.policy.generation ++ bs))
    (s1.isLocked = true → refused .locked (numBytes2 (windowCode s1.time.activeWindow))) ∧
    (s1.isLocked = false → g ≠ s1.policy.generation → refused .stale []) ∧
    (∀ (a : WriteClassArgs) (c : ClassId) (k : Kind), q = .writeClass a → s1.isLocked = false →
      g = s1.policy.generation → classOf? a.cls = some c → kindOf? a.kind = some k →
      k ≠ s1.policy.classes[c].kind → 0 < s1.table.classCount[c] →
      refused .classLive (numBytes2 s1.table.classCount[c]))

/-- R133, R135 and R144: an accepted WRITE_CLASS stores the clamped entry; a class that becomes EMERGENCY gets its may-wait
flag in the four profiles and leaves the manual bar set; the generation rises, POLICY is latched at the other ports,
and the answer is DONE. -/
def Obligations.WriteClassStoresTheClampedEntry : Prop :=
  ∀ (s s1 : State) (p : Port) (tag : Byte) (a : WriteClassArgs) (c : ClassId) (k : Kind),
    engineTake p tag (.writeClass a) s = some s1 → classOf? a.cls = some c → kindOf? a.kind = some k →
    s1.isLocked = false → a.gen = s1.policy.generation →
    (k = s1.policy.classes[c].kind ∨ s1.table.classCount[c] = 0) →
    ∃ e : ClassEntry,
      e.kind = k ∧
      e.level.val = (match k with
        | .emergency => 0
        | .priority => max 1 (min 3 a.level.toNat)
        | .general => max 2 (min 7 a.level.toNat)
        | .unused => min 7 a.level.toNat) ∧
      e.preempt = (if k = .emergency then true else if k = .general then false else a.preempt) ∧
      e.vulnerable = (if k = .emergency then false else a.vulnerable) ∧ e.continuous = a.continuous ∧
      e.u = max 1 a.u.toNat ∧ e.v = min a.v.toNat e.u ∧ e.hold = max 1 a.hold.toNat ∧
      let stored : State := { s1 with
        policy.classes := s1.policy.classes.set c e
        policy.rates := if k = .emergency then Vector.ofFn fun pr : ProfileId =>
          s1.policy.rates[pr].set c { s1.policy.rates[pr][c] with mayWait := true } else s1.policy.rates
        policy.bars := if k = .emergency then s1.policy.bars &&& ~~~(1#16 <<< c.val) else s1.policy.bars
        policy.generation := s1.policy.generation + 1 }
      exec (.writeClass p tag a) s = .next ((raiseOthers p .policy stored).respond p .done
        (bytes2 (s1.policy.generation + 1) ++
          [byteOf (e.kind.code * 64 + e.level.val * 8) ||| flagsByte [e.preempt, e.vulnerable, e.continuous],
            byteOf e.u, byteOf e.v, byteOf e.hold]))

/-- R119, R136, R137 and R144: an accepted WRITE_RATES stores the clamped entry. In the active profile the class's exhausted
flag is cleared, and its allowance is loaded with R in ONESHOT mode and clamped to R otherwise. -/
def Obligations.WriteRatesStoresAndLoads : Prop :=
  ∀ (s s1 : State) (p : Port) (tag : Byte) (a : WriteRatesArgs) (pr : ProfileId) (c : ClassId) (m : Mode),
    engineTake p tag (.writeRates a) s = some s1 → profileOf? a.profile = some pr → classOf? a.cls = some c →
    modeOf? a.mode = some m → s1.isLocked = false → a.gen = s1.policy.generation →
    let e : RateEntry :=
      { weight := a.weight.toNat, reload := a.reload.toNat, trickle := min a.trickle.toNat a.reload.toNat, mode := m
        mayWait := a.mayWait || decide (s1.policy.classes[c].kind = .emergency)
        waitLimit := max 1 a.waitLimit.toNat }
    let k := s1.pacing.classes[c]
    let loaded := if m = .oneshot then a.reload.toNat else min k.allowance a.reload.toNat
    let stored : State := { s1 with
      policy.rates := s1.policy.rates.set pr (s1.policy.rates[pr].set c e)
      policy.generation := s1.policy.generation + 1
      pacing.classes := if pr = s1.time.activeProfile then
          s1.pacing.classes.set c { k with allowance := loaded, exhausted := false } else s1.pacing.classes }
    exec (.writeRates p tag a) s = .next ((raiseOthers p .policy stored).respond p .done
      (bytes2 (s1.policy.generation + 1) ++ rateBytes e ++
        (if pr = s1.time.activeProfile then numBytes2 loaded else [])))

/-- R138, R139, R140 and R144: accepted WRITE_THRESHOLDS and WRITE_LIMITS store the clamped values. Limits of the active
profile recompute Feff, with service when it falls, and evaluate EXHAUSTED after it. -/
def Obligations.WriteThresholdsAndLimitsStore : Prop :=
  (∀ (s s1 : State) (p : Port) (tag : Byte) (a : WriteThresholdsArgs) (pr : ProfileId),
    engineTake p tag (.writeThresholds a) s = some s1 → profileOf? a.profile = some pr → s1.isLocked = false →
    a.gen = s1.policy.generation →
    let u1 := max 1 (min 100 a.u1.toNat)
    let u2 := max u1 (max 1 (min 100 a.u2.toNat))
    let u3 := max u2 (max 1 (min 100 a.u3.toNat))
    let d1 := min a.d1.toNat (u1 - 1)
    let d2 := min a.d2.toNat (u2 - 1)
    let d3 := min a.d3.toNat (u3 - 1)
    exec (.writeThresholds p tag a) s = .next ((raiseOthers p .policy { s1 with
      policy.thresholds := s1.policy.thresholds.set pr ⟨u1, u2, u3, d1, d2, d3⟩
      policy.generation := s1.policy.generation + 1 }).respond p .done
        (bytes2 (s1.policy.generation + 1) ++ [byteOf u1, byteOf u2, byteOf u3, byteOf d1, byteOf d2, byteOf d3]))) ∧
  (∀ (s s1 : State) (p : Port) (tag : Byte) (a : WriteLimitsArgs) (pr : ProfileId),
    engineTake p tag (.writeLimits a) s = some s1 → profileOf? a.profile = some pr → s1.isLocked = false →
    a.gen = s1.policy.generation →
    let l : Limits :=
      { floor := a.floor.toNat, interval := max 5 (min 100 a.interval.toNat), grace := max 1 a.grace.toNat
        stall := max 1 a.stall.toNat, exhaust := a.exhaust.toNat }
    let stored : State := { s1 with policy.limits := s1.policy.limits.set pr l }
    let applied := if pr = s1.time.activeProfile then evalExhausted (refloor stored) else stored
    exec (.writeLimits p tag a) s = .next ((raiseOthers p .policy { applied with
      policy.generation := s1.policy.generation + 1 }).respond p .done
        (bytes2 (s1.policy.generation + 1) ++ numBytes2 l.floor ++
          [byteOf l.interval, byteOf l.grace, byteOf l.stall, byteOf l.exhaust])))

/-- R5, R120 and R141: an accepted SELECT_PROFILE stores the base profile, which becomes active when no window is. A
change of the active profile clamps every allowance to the new R, clears the exhausted flag of a class that leaves
ONESHOT, recomputes Feff, with service when it falls and free is greater than 0, and evaluates EXHAUSTED. -/
def Obligations.ProfileChangeClampsAndRefloors : Prop :=
  (∀ (s s1 : State) (p : Port) (tag : Byte) (a : SelectProfileArgs) (pr : ProfileId),
    engineTake p tag (.selectProfile a) s = some s1 → profileOf? a.profile = some pr → s1.isLocked = false →
    a.gen = s1.policy.generation →
    let stored : State := { s1 with policy.base := pr }
    let applied := if s1.time.activeWindow = none then setActiveProfile pr stored else stored
    exec (.selectProfile p tag a) s = .next ((raiseOthers p .policy { applied with
      policy.generation := s1.policy.generation + 1 }).respond p .done
        (bytes2 (s1.policy.generation + 1) ++ [byteOf pr.val, byteOf applied.time.activeProfile.val]))) ∧
  (∀ (s : State) (pr : ProfileId),
    (pr = s.time.activeProfile → setActiveProfile pr s = s) ∧
    (pr ≠ s.time.activeProfile →
      let new := min s.policy.limits[pr].floor (s.pool.capacity / 2)
      let changed : State := { s with
        time.activeProfile := pr
        pool.feff := new
        pacing.classes := Vector.ofFn fun c : ClassId =>
          { s.pacing.classes[c] with
            allowance := min s.pacing.classes[c].allowance s.policy.rates[pr][c].reload
            exhausted := s.pacing.classes[c].exhausted && !(decide
              (s.policy.rates[s.time.activeProfile][c].mode = .oneshot ∧ s.policy.rates[pr][c].mode ≠ .oneshot)) } }
      setActiveProfile pr s =
        evalExhausted (if new < s.pool.feff ∧ 0 < s.pool.free then service changed else changed))) ∧
  (∀ s : State,
    let new := min s.activeLimits.floor (s.pool.capacity / 2)
    let changed : State := { s with pool.feff := new }
    refloor s = if new < s.pool.feff ∧ 0 < s.pool.free then service changed else changed)

/-- R157, R158 and R144: accepted WRITE_WINDOW and WRITE_WINDOW_BARS store the fields, the one keeping the bar mask and the
other everything else, and the active window is evaluated as part of the write. -/
def Obligations.WindowWritesStoreAndEvaluate : Prop :=
  (∀ (s s1 : State) (p : Port) (tag : Byte) (a : WriteWindowArgs) (i : WindowId) (pr : ProfileId),
    engineTake p tag (.writeWindow a) s = some s1 → a.window.toNat = i.val → a.profile.toNat = pr.val →
    s1.isLocked = false → a.gen = s1.policy.generation →
    let w : Window :=
      { enabled := a.enabled, start := a.start, duration := max 1 (min 1440 a.duration.toNat), daily := a.daily
        profile := pr, minimum := min 3 a.minimum.toNat, lock := a.lock, bars := s1.policy.windows[i].bars }
    let t := evalWindow { s1 with policy.windows := s1.policy.windows.set i w }
    exec (.writeWindow p tag a) s = .next ((raiseOthers p .policy { t with
      policy.generation := s1.policy.generation + 1 }).respond p .done
        (bytes2 (s1.policy.generation + 1) ++ windowTimingBytes w ++
          [byteOf (w.profile.val * 16 + w.minimum), byteOf (windowCode t.time.activeWindow)]))) ∧
  (∀ (s s1 : State) (p : Port) (tag : Byte) (a : WriteWindowBarsArgs) (i : WindowId),
    engineTake p tag (.writeWindowBars a) s = some s1 → a.window.toNat = i.val →
    s1.isLocked = false → a.gen = s1.policy.generation →
    let t := evalWindow { s1 with
      policy.windows := s1.policy.windows.set i { s1.policy.windows[i] with bars := a.mask } }
    exec (.writeWindowBars p tag a) s = .next ((raiseOthers p .policy { t with
      policy.generation := s1.policy.generation + 1 }).respond p .done
        (bytes2 (s1.policy.generation + 1) ++ bytes2 a.mask ++ [byteOf (windowCode t.time.activeWindow)])))

/-- R121 and R159 to R161: the active window is the lowest-numbered one that contains now. A change latches WINDOW at the
ports; the profile of the window, or the base profile, is made active; and the pressure level is raised to the window's
minimum, with PRESSURE when that changes it. -/
def Obligations.ActiveWindowIsLowestThatContainsNow : Prop :=
  (∀ (w : Window) (t : TimeBase),
    w.containsNow t = true ↔ w.enabled = true ∧ t.state = .running ∧ w.start.toNat ≤ t.seconds.toNat ∧
      (if w.daily then (t.seconds.toNat - w.start.toNat) % 86400 < w.duration * 60
        else t.seconds.toNat < w.start.toNat + w.duration * 60)) ∧
  (∀ (s : State) (new : Option WindowId),
    (new = none ∧ (∀ i : WindowId, s.policy.windows[i].containsNow s.time = false) ∨
      ∃ i : WindowId, new = some i ∧ s.policy.windows[i].containsNow s.time = true ∧
        ∀ j : WindowId, j < i → s.policy.windows[j].containsNow s.time = false) →
    let s1 : State := if new = s.time.activeWindow then s
      else raiseAll .window { s with time.activeWindow := new }
    let s2 := setActiveProfile (match new with
      | none => s.policy.base
      | some i => s.policy.windows[i].profile) s1
    evalWindow s = (match new with
      | none => s2
      | some i =>
        if s.pacing.level < s.policy.windows[i].minimum then
          raiseAll .pressure { s2 with pacing.level := s.policy.windows[i].minimum }
        else s2))

/-- R118, R147 and R148: BAR_SET adds the classes named to the manual bar set and BAR_CLEAR removes them, but for those of
kind EMERGENCY, and POLICY is latched at the other ports when that changes the set; in a locked window BAR_CLEAR and
REARM are answered LOCKED. A REARM clears the exhausted flag and, in ONESHOT mode, loads the allowance with R. The
generation stays. Two places in the answers are the model's reading of R188, whose words do not fix them (log 8): a
LOCKED BAR_CLEAR carries the manual bar set in bytes 4 and 5, and the exhausted flag of a REARM takes a byte alone. -/
def Obligations.BarsAndRearm : Prop :=
  ∀ (s s1 : State) (p : Port) (tag : Byte) (mask : Half),
    (∃ m : ClassSet, (∀ c : ClassId, m.getLsbD c.val =
        (mask.getLsbD c.val && !decide (s1.policy.classes[c].kind = .emergency))) ∧
      let changed := fun (bars : ClassSet) =>
        if bars = s1.policy.bars then s1 else raiseOthers p .policy { s1 with policy.bars := bars }
      (engineTake p tag (.barSet mask) s = some s1 →
        exec (.barSet p tag mask) s =
          .next ((changed (s1.policy.bars ||| m)).respond p .done (bytes2 m ++ bytes2 (s1.policy.bars ||| m)))) ∧
      (engineTake p tag (.barClear mask) s = some s1 →
        exec (.barClear p tag mask) s = .next (if s1.isLocked then s1.respond p .locked (bytes2 s1.policy.bars)
          else (changed (s1.policy.bars &&& ~~~m)).respond p .done
            (bytes2 m ++ bytes2 (s1.policy.bars &&& ~~~m))))) ∧
    (∀ (b : Byte) (c : ClassId), b.toNat = c.val → engineTake p tag (.rearm b) s = some s1 →
      let e := s1.activeRate c
      let k : ClassPacing := { s1.pacing.classes[c] with
        allowance := if e.mode = .oneshot then e.reload else s1.pacing.classes[c].allowance
        exhausted := false }
      exec (.rearm p tag b) s = .next (if s1.isLocked then
          s1.respond p .locked (bytes2 s1.policy.generation ++ numBytes2 (windowCode s1.time.activeWindow))
        else { s1 with pacing.classes := s1.pacing.classes.set c k }.respond p .done
          ([byteOf c.val] ++ numBytes2 k.allowance ++ [0])))

/-- R132, R142 and R146: the policy image, its generation and the manual bar set among it, is changed by the seven guarded
writes, by BAR_SET and BAR_CLEAR, and by the reset of the part alone. -/
def Obligations.OnlyPolicyRequestsChangeThePolicy : Prop :=
  ∀ (i : Instr) (s t : State), exec i s = .next t →
    (match i with
      | .writeClass _ _ _ => True
      | .writeRates _ _ _ => True
      | .writeThresholds _ _ _ => True
      | .writeLimits _ _ _ => True
      | .selectProfile _ _ _ => True
      | .writeWindow _ _ _ => True
      | .writeWindowBars _ _ _ => True
      | .barSet _ _ _ => t.policy = { s.policy with bars := t.policy.bars }
      | .barClear _ _ _ => t.policy = { s.policy with bars := t.policy.bars }
      | .powerOnReset => t.policy = Policy.reset
      | _ => t.policy = s.policy)

/-! Capacity and time (chapters 1 and 8). -/

/-- R11 to R15: a WRITE_CAPACITY clamps its target into 64 to 4095. At or above C, C and T become the target and the units
by which C rose are one return with no returning record; below C, T becomes the target and free units are retired at
once as far as they reach. Feff follows C, EXHAUSTED is evaluated at the end, and DONE carries C, T, free and D. The
lock of a window is not read, and the policy image stays. -/
def Obligations.CapacityFollowsTheTarget : Prop :=
  ∀ (s s1 : State) (p : Port) (tag : Byte) (target : Half), engineTake p tag (.writeCapacity target) s = some s1 →
    let n := max 64 (min 4095 target.toNat)
    let c := s1.pool.capacity
    let retired := min s1.pool.free (c - n)
    ∃ t : State,
      (c ≤ n → t = evalExhausted (distribute none (n - c)
        (refloor { s1 with pool.capacity := n, pool.target := n }))) ∧
      (n < c → t = evalExhausted (refloor { s1 with
        pool.target := n, pool.capacity := c - retired, pool.free := s1.pool.free - retired })) ∧
      t.pool.target = n ∧ (c ≤ n → t.pool.capacity = n) ∧ (n < c → t.pool.capacity = c - retired) ∧ Untouched s1 t ∧
      exec (.writeCapacity p tag target) s = .next (t.respond p .done
        (numBytes2 t.pool.capacity ++ numBytes2 t.pool.target ++ numBytes2 t.pool.free ++
          numBytes2 (t.pool.capacity - t.pool.target)))

/-- R154 and R155: a SET_TIME clamps its ticks to 99. While RUNNING, a difference of at most 200 ticks either way becomes
the slew remainder and nothing else changes. Else the time is loaded, the state is RUNNING, the remainder is 0, TIME is
latched at the ports and the active window is evaluated; a second that has ended and whose boundary was not taken is
then no longer due (log 7). -/
def Obligations.SetTimeLoadsSlewsOrSteps : Prop :=
  ∀ (s s1 : State) (p : Port) (tag : Byte) (a : SetTimeArgs), engineTake p tag (.setTime a) s = some s1 →
    let ticks := min 99 a.ticks.toNat
    let d : Int := (a.seconds.toNat * 100 + ticks : Nat) - (s1.time.seconds.toNat * 100 + s1.time.tickInSecond : Nat)
    let t := if s1.time.state = .running ∧ -200 ≤ d ∧ d ≤ 200 then { s1 with time.slew := d }
      else evalWindow (raiseAll .time { s1 with time := { s1.time with
        state := .running, seconds := a.seconds, tickInSecond := ticks, slew := 0, held := false
        secondDue := none } })
    exec (.setTime p tag a) s = .next (t.respond p .done
      ([byteOf (t.time.state.code * 128 + t.time.activeProfile.val * 32 + windowCode t.time.activeWindow)] ++
        bytes4 t.time.seconds ++ numBytes2 (t.time.tickInSecond * 512 + (BitVec.ofInt 9 t.time.slew).toNat)))

/-- R27, R71, R97, R111 and R151: a TICK counts the tick counter, every setup timer, grace timer and deadline, with its
waited count, and the interval countdown. A timer stands at 0 until its expiry is taken (log 5). When the countdown comes
to 0 it is reloaded with the interval of the active profile and the boundary is due at both units. Nothing else changes
but the time of day. While RESET# is low nothing does (R191). -/
def Obligations.TickCountsEveryTimer : Prop :=
  ∀ s : State,
    (s.resetLow = true → exec .tick s = .next s) ∧
    (s.resetLow = false → ∃ t : State, exec .tick s = .next t ∧
      (∀ id : RecId, s.rec? id = none → t.rec? id = none) ∧
      (∀ (id : RecId) (r : CallRecord), s.rec? id = some r →
        let becomes := fun (st : RecState) => t.rec? id = some { r with state := st }
        (∀ n : Nat, r.state = .holding (.setup n) → becomes (.holding (.setup (n - 1)))) ∧
        (∀ (n g : Nat) (c : RecId), r.state = .preemptPending (.setup n) g c →
          becomes (.preemptPending (.setup (n - 1)) (g - 1) c)) ∧
        (∀ (h : HoldState) (g : Nat) (c : RecId), (∀ n : Nat, h ≠ .setup n) → r.state = .preemptPending h g c →
          becomes (.preemptPending h (g - 1) c)) ∧
        (∀ w : WaitFields, r.state = .waiting w → 0 < w.deadline →
          becomes (.waiting { w with deadline := w.deadline - 1, waited := w.waited + 1 })) ∧
        (∀ (w : WaitFields) (n : Nat) (vs : List RecId), r.state = .collecting w n vs → 0 < w.deadline →
          becomes (.collecting { w with deadline := w.deadline - 1, waited := w.waited + 1 } n vs)) ∧
        ((∀ w : WaitFields, r.state = .waiting w → w.deadline = 0) →
          (∀ (w : WaitFields) (n : Nat) (vs : List RecId), r.state = .collecting w n vs → w.deadline = 0) →
          (∀ n : Nat, r.state ≠ .holding (.setup n)) →
          (∀ (h : HoldState) (g : Nat) (c : RecId), r.state ≠ .preemptPending h g c) → becomes r.state)) ∧
      let ends := decide (s.pacing.countdown ≤ 1)
      t = { s with
        table.records := t.table.records
        pacing.countdown := if ends then s.activeLimits.interval else s.pacing.countdown - 1
        pacing.boundaryDue := s.pacing.boundaryDue || ends
        pacing.reloadOpen := ends
        wait.boundaryDue := s.wait.boundaryDue || ends
        time := { s.time with
          ticks := s.time.ticks + 1, tickInSecond := t.time.tickInSecond, held := t.time.held
          secondDue := t.time.secondDue } })

/-- R152 and R153. In UNSET, and while the boundary of the last second is due (log 5), the tick-in-second stands. At 98 a
remainder greater than 0 ends the second after 99 ticks; at 99 a remainder less than 0 holds the tick-in-second for one
tick more, after which the second ends, and any other remainder ends it. A SECOND_BOUNDARY that is due raises the seconds
by 1 with wrap, clears the tick-in-second, absorbs a tick of slew by the way the second ended, and evaluates the active
window; one that is not due changes nothing (log 3). A remainder of −200 is not lowered further (log 7). -/
def Obligations.SecondsRunAndEndBySlew : Prop :=
  (∀ s : State, s.resetLow = false → ∃ t : State, exec .tick s = .next t ∧
     let reads := fun (n : Nat) (held : Bool) (due : Option SecondEnd) =>
       t.time.tickInSecond = n ∧ t.time.held = held ∧ t.time.secondDue = due
     let n := s.time.tickInSecond
     (s.time.state = .unset ∨ s.time.secondDue ≠ none → reads n s.time.held s.time.secondDue) ∧
     (s.time.state = .running → s.time.secondDue = none →
       (n < 98 → reads (n + 1) s.time.held none) ∧
       (n = 98 → 0 < s.time.slew → reads 98 s.time.held (some .short)) ∧
       (n = 98 → s.time.slew ≤ 0 → reads 99 s.time.held none) ∧
       (n = 99 → s.time.held = false → s.time.slew < 0 → reads 99 true none) ∧
       (n = 99 → s.time.held = false → 0 ≤ s.time.slew → reads 99 false (some .full)) ∧
       (n = 99 → s.time.held = true → reads 99 true (some .held)))) ∧
  (∀ s : State,
     (s.resetLow = true ∨ s.time.secondDue = none → exec .secondBoundary s = .next s) ∧
     (s.resetLow = false → ∀ slew : Int,
       (s.time.secondDue = some .short ∧
           (-200 < s.time.slew ∧ slew = s.time.slew - 1 ∨ s.time.slew ≤ -200 ∧ slew = s.time.slew) ∨
         s.time.secondDue = some .full ∧ slew = s.time.slew ∨
         s.time.secondDue = some .held ∧ (s.time.slew < 0 ∧ slew = s.time.slew + 1 ∨
           0 ≤ s.time.slew ∧ slew = s.time.slew)) →
       exec .secondBoundary s = .next (evalWindow { s with time := { s.time with
         seconds := s.time.seconds + 1, tickInSecond := 0, slew := slew, held := false, secondDue := none } })))

/-! Interval boundaries (chapters 4 and 6). -/

/-- R112 and R122 to R126: the Pacing Unit's boundary. The occupancy and the thresholds give the pressure level, with the
window minimum and the waiting emergency, and PRESSURE is latched when it changes; each class gets its new allowance by
its kind, mode, bars and share; and each attempt count becomes the closed count and 0. A boundary that is not due
changes nothing (log 3); the countdown is that of log 6. -/
def Obligations.BoundaryComputesLevelAndAllowances : Prop :=
  ∀ s : State,
    (s.resetLow = true ∨ s.pacing.boundaryDue = false → exec .intervalBoundary s = .next s) ∧
    (TableBooks s → s.resetLow = false → s.pacing.boundaryDue = true →
      let q := 100 * (s.pool.capacity - s.pool.free) / s.pool.capacity
      let th := s.activeThresholds
      let up := (if th.u1 ≤ q then 1 else 0) + (if th.u2 ≤ q then 1 else 0) + (if th.u3 ≤ q then 1 else 0)
      let down := (if th.d1 ≤ q then 1 else 0) + (if th.d2 ≤ q then 1 else 0) + (if th.d3 ≤ q then 1 else 0)
      let l := s.pacing.level
      let l1 := if l < up then up else if down < l then down else l
      let l2 := max l1 (match s.time.activeWindow with
        | none => 0
        | some i => s.policy.windows[i].minimum)
      let emergency := ∃ (id : RecId) (r : CallRecord), s.rec? id = some r ∧ r.kind = .emergency ∧
        (r.isWaiting = true ∨ r.isCollecting = true)
      let inShare := fun (c : ClassId) =>
        s.policy.classes[c].kind == .general && (s.activeRate c).mode == .paced && !s.isBarred c &&
          decide (0 < (s.activeRate c).weight) && decide (0 < s.pacing.classes[c].attempts)
      let weights := (((List.finRange 16).filter inShare).map fun c => (s.activeRate c).weight).sum
      ∃ (n : Nat) (t : State), exec .intervalBoundary s = .next t ∧
        (emergency → n = max 2 l2) ∧ (¬ emergency → n = l2) ∧
        (∀ c : ClassId,
          let old := s.pacing.classes[c]
          let new := t.pacing.classes[c]
          let e := s.activeRate c
          let paid := (s.pool.free - s.pool.feff) * e.weight / weights / 2 ^ n / s.policy.classes[c].u
          let trickle := if n < 3 then e.trickle else 0
          new.closed = old.attempts ∧ new.attempts = 0 ∧ new.exhausted = old.exhausted ∧
          (s.policy.classes[c].kind ≠ .general ∨ e.mode = .oneshot → new.allowance = old.allowance) ∧
          (s.policy.classes[c].kind = .general → e.mode = .fixed → new.allowance = e.reload) ∧
          (s.policy.classes[c].kind = .general → e.mode = .paced →
            (s.isBarred c = true → new.allowance = 0) ∧
            (s.isBarred c = false → inShare c = false → new.allowance = trickle) ∧
            (inShare c = true → new.allowance = min e.reload (max trickle paid)))) ∧
        let changed : State := { s with pacing := {
          countdown := if s.pacing.reloadOpen then s.activeLimits.interval else s.pacing.countdown
          level := n, boundaryDue := false, reloadOpen := false, classes := t.pacing.classes } }
        t = if n = l then changed else raiseAll .pressure changed)

/-- R79 to R83: the Wait List's boundary work is service, while free is greater than 0, with its evaluation of EXHAUSTED,
then the retry over the WAITING records in service order, then the STALLED test. The retry passes over a record that is
not pre-emption-capable, ends at a capable one that would fit or finds no victims, and makes a collector of one that
finds them; it leaves the wait list and the allowances as they are. Work that is not due changes nothing (log 3). -/
def Obligations.BoundaryWorkServesRetriesThenTests : Prop :=
  (∀ s : State,
    (s.resetLow = true ∨ s.wait.boundaryDue = false → exec .waitListBoundaryWork s = .next s) ∧
    (s.resetLow = false → s.wait.boundaryDue = true →
      let begun : State := { s with wait.boundaryDue := false }
      let served := if s.pool.free = 0 then begun else evalExhausted (service begun)
      exec .waitListBoundaryWork s = .next (evalStalled (retryList (waitingOrder served) served)))) ∧
  (∀ (s : State) (id : RecId) (rest : List RecId) (r : CallRecord) (w : WaitFields),
    s.rec? id = some r → r.state = .waiting w →
    let capable := r.kind = .emergency ∨ r.kind = .priority ∧ s.policy.classes[r.cls].preempt = true
    retryList [] s = s ∧
    (¬ capable → retryList (id :: rest) s = retryList rest s) ∧
    (capable → w.need ≤ s.pool.free ∨ selectVictims s r.level w.need = none → retryList (id :: rest) s = s) ∧
    (∀ vs : List RecId, capable → s.pool.free < w.need → selectVictims s r.level w.need = some vs →
      retryList (id :: rest) s = retryList rest (makeCollector id r w vs s))) ∧
  (∀ (s : State) (ids : List RecId),
    let t := retryList ids s
    t.wait = s.wait ∧ t.pool.capacity = s.pool.capacity ∧
    t.pool.free + t.pool.collected = s.pool.free + s.pool.collected ∧
    (t.pool.free = s.pool.free ∨ t.pool.free = 0) ∧ Untouched s t)

/-! Sector ports and resets (chapter 10). -/

/-- R180 to R183: where CS# falls the out-frame is the response of the oldest request when that is executed, else an
EMPTY frame, with the summary of that moment; while PRST# or RESET# is low the transaction will be ignored and MISO is
high impedance. Where CS# rises, a frame of 96 clocks delivers the response it carries and clears a REJECT that its
summary showed, and then its in-frame is taken: NULL is not counted, any other joins the requests in flight while there
are fewer than 4, and sets REJECT otherwise; any other clock count delivers nothing and sets REJECT; a transaction that is
not taken does nothing. Two clauses are the model's choice: CS# that is low already does not fall, and CS# that is high
already does not rise (log 3); and a transaction that begins while PRST# or RESET# is low presents nothing to its end
(log 15). -/
def Obligations.TransactionsChooseDeliverAndTake : Prop :=
  (∀ (s : State) (p : Port),
     let ps := s.ports[p]
     let starts := fun (t : Transaction) =>
       exec (.transactionStart p) s = .next (s.updPort p fun ps => { ps with transaction := some t })
     (ps.transaction ≠ none → exec (.transactionStart p) s = .next s) ∧
     (ps.transaction = none → ps.prstLow = true ∨ s.resetLow = true →
       starts { taken := false, out := none, carries := false, rejectShown := false }) ∧
     (ps.transaction = none → ps.prstLow = false → s.resetLow = false →
       (∀ (q : InFlight) (rest : List InFlight) (r : Response) (rs : List Response),
         ps.inflight = q :: rest → q.executed = true → ps.responses = r :: rs →
         let sum := summary s p true
         let d := r.data
         starts { taken := true, carries := true, rejectShown := ps.reject
                  out := some ⟨hiByte sum, loByte sum, r.tag, r.result.code,
                    d.d4, d.d5, d.d6, d.d7, d.d8, d.d9, d.d10, d.d11⟩ }) ∧
       (ps.inflight = [] ∨ (∃ (q : InFlight) (rest : List InFlight), ps.inflight = q :: rest ∧ q.executed = false) →
         let sum := summary s p false
         starts { taken := true, carries := false, rejectShown := ps.reject
                  out := some ⟨hiByte sum, loByte sum, 0, 0, 0, 0, 0, 0, 0, 0, 0, 0⟩ }))) ∧
  (∀ (s : State) (p : Port) (clocks : Nat) (f : Frame),
     let ps := s.ports[p]
     let ends := fun (inflight : List InFlight) (responses : List Response) (reject : Bool) =>
       exec (.transactionEnd p clocks f) s = .next (s.updPort p fun ps =>
         { ps with transaction := none, inflight := inflight, responses := responses, reject := reject })
     (ps.transaction = none → exec (.transactionEnd p clocks f) s = .next s) ∧
     (∀ t : Transaction, ps.transaction = some t →
       (t.taken = false → ends ps.inflight ps.responses ps.reject) ∧
       (t.taken = true → clocks ≠ 96 → ends ps.inflight ps.responses true) ∧
       (t.taken = true → clocks = 96 →
         let inflight := if t.carries then ps.inflight.tail else ps.inflight
         let responses := if t.carries then ps.responses.tail else ps.responses
         let reject := ps.reject && !t.rejectShown
         (f.b0 = 0 → ends inflight responses reject) ∧
         (f.b0 ≠ 0 → inflight.length < 4 → ends (inflight ++ [{ frame := f, executed := false }]) responses reject) ∧
         (f.b0 ≠ 0 → 4 ≤ inflight.length → ends inflight responses true))))

/-- R178, R190 and R191: PRST# falls: the queues of the port are emptied, REJECT is cleared, a transaction in progress is
dropped and the reset sequence begins, which is over at once where the port owns no record. While RESET# is low a fall
moves the pin alone and drops the transaction. The model's choices: PRST# that is low already does not fall (log 3);
while RESET# is low the queues keep their contents until the power-on reset (log 17);
a dropped transaction presents nothing to its end (log 15); a PORT_CLEAR of the port that is being executed goes on
without its response (R192, log 16); and where PRST# rises the pin alone moves, also before the sequence has ended
(log 13). -/
def Obligations.PortResetEmptiesThePort : Prop :=
  ∀ (s : State) (p : Port),
    let dead : Option Transaction → Option Transaction := fun t =>
      t.map fun _ => { taken := false, out := none, carries := false, rejectShown := false }
    (exec (.portResetRelease p) s = .next (s.updPort p fun ps => { ps with prstLow := false })) ∧
    (s.ports[p].prstLow = true → exec (.portReset p) s = .next s) ∧
    (s.ports[p].prstLow = false → s.resetLow = true → exec (.portReset p) s =
      .next (s.updPort p fun ps => { ps with prstLow := true, transaction := dead ps.transaction })) ∧
    (TableBooks s → s.ports[p].prstLow = false → s.resetLow = false →
      ((∃ (id : RecId) (r : CallRecord), s.rec? id = some r ∧ r.owner = p) → exec (.portReset p) s =
        .next (s.updPort p fun ps => { ps with
          inflight := [], responses := [], reject := false, prstLow := true, transaction := dead ps.transaction
          resetSeq := some (match ps.resetSeq with
            | some (.byClear _) => .byClear none
            | _ => .byPin) })) ∧
      ((∀ (id : RecId) (r : CallRecord), s.rec? id = some r → r.owner ≠ p) → exec (.portReset p) s =
        .next (s.updPort p fun ps => { ps with
          inflight := [], responses := [], reject := false, prstLow := true, resetSeq := none
          transaction := dead ps.transaction, events := 0, enables := 0b111, stalledArm := true
          exhaustedArm := true })))

/-- R38, R39 and R178: the next record of a reset sequence is the lowest id that the port owns. A holding is released, a
victim first to its collector; a waiting record or a collector is withdrawn as by a CANCEL; any other is freed. After
the last record the reporting state takes its reset values, and the response of a PORT_CLEAR joins the response queue
(R192, log 11), unless PRST# has discarded it. R189: no record of a PRST# sequence is treated within the execution of a
PORT_CLEAR of any port. The model's choices: the command changes nothing where no record is to be treated (log 3); the
sequences of two ports reset by PRST# may alternate (log 10); a PORT_CLEAR whose response PRST# has discarded goes on
to its end (log 16). -/
def Obligations.ResetSequenceFreesTheLowestRecord : Prop :=
  ∀ (s : State) (p : Port),
    (s.resetLow = true ∨ s.ports[p].resetSeq = none → exec (.portResetRecord p) s = .next s) ∧
    (∀ (q : Port) (answer : Option Response), s.ports[p].resetSeq = some .byPin →
      s.ports[q].resetSeq = some (.byClear answer) → exec (.portResetRecord p) s = .next s) ∧
    (∀ (seq : ResetSeq) (id : RecId) (r : CallRecord) (t : State),
      TableBooks s → s.resetLow = false → s.ports[p].resetSeq = some seq →
      (seq = .byPin → ∀ (q : Port) (answer : Option Response), s.ports[q].resetSeq ≠ some (.byClear answer)) →
      s.rec? id = some r → r.owner = p →
      (∀ (j : RecId) (x : CallRecord), s.rec? j = some x → x.owner = p → id ≤ j) →
      (∀ h : HoldState, r.state = .holding h → t = distribute none (h.units r.u r.v) (freeRecord id s)) →
      (∀ (h : HoldState) (g : Nat) (c : RecId), r.state = .preemptPending h g c →
        t = distribute (some c) (h.units r.u r.v) (freeRecord id s)) →
      (∀ (w : WaitFields) (n : Nat) (vs : List RecId), r.state = .collecting w n vs →
        t = distribute none n (freeRecord id (reprieveAll vs
          ((freeSlot id (leaveWait id r.level { s with pool.collected := s.pool.collected - n })).setRec id
            { r with state := .expired })))) →
      ((r.isWaiting = true ∨ r.state = .reclaimed ∨ r.state = .expired) → t = freeRecord id s) →
      ((∃ (j : RecId) (x : CallRecord), t.rec? j = some x ∧ x.owner = p) →
        exec (.portResetRecord p) s = .next t) ∧
      ((∀ (j : RecId) (x : CallRecord), t.rec? j = some x → x.owner ≠ p) →
        exec (.portResetRecord p) s = .next (t.updPort p fun ps => { ps with
          resetSeq := none, events := 0, enables := 0b111, stalledArm := true, exhaustedArm := true
          inflight := (match seq with
            | .byClear (some _) => markExecuted ps.inflight
            | _ => ps.inflight)
          responses := (match seq with
            | .byClear (some answer) => ps.responses ++ [answer]
            | _ => ps.responses) })))

/-- R192: a PORT_CLEAR forms its DONE first, with the number of records its port owns and the number of other requests
discarded, which the model reads as all the others in flight, executed or not (log 14). It alone stays in flight, every response is discarded, the one being shifted out among them, REJECT is
cleared, and the reset sequence begins, which is over at once where the port owns no record. That the DONE joins the
response queue only when the sequence is over is read from R189 and R192 together (log 11). -/
def Obligations.PortClearKeepsOnlyItself : Prop :=
  ∀ (s s1 : State) (p : Port) (tag : Byte), engineTake p tag .portClear s = some s1 →
    let owned := (s1.table.records.filter fun e => e.2.owner = p).length
    let answer : Response :=
      { tag := tag, result := .done
        data := dataOf (numBytes2 owned ++ [byteOf (s1.ports[p].inflight.length - 1)]) }
    let uncarried : Option Transaction → Option Transaction := fun t => t.map fun t => { t with carries := false }
    ∃ f : Frame, f.b1 = tag ∧ decodeRequest f = .portClear ∧
      (s1.ports[p].inflight.find? fun q => !q.executed) = some { frame := f, executed := false } ∧
      (0 < owned → exec (.portClear p tag) s = .next (s1.updPort p fun ps => { ps with
        inflight := [{ frame := f, executed := false }], responses := [], reject := false
        transaction := uncarried ps.transaction, resetSeq := some (.byClear (some answer)) })) ∧
      (owned = 0 → exec (.portClear p tag) s = .next (s1.updPort p fun ps => { ps with
        inflight := [{ frame := f, executed := true }], responses := [answer], reject := false
        transaction := uncarried ps.transaction, resetSeq := none, events := 0, enables := 0b111
        stalledArm := true, exhaustedArm := true }))

/-- R191: RESET# falls: transactions in progress are dropped, and present nothing to their end (the model's choice, log 15).
While it is low no block takes an event and no request is executed. That the blocks keep their old values until RESET#
rises, and take their power-on values only then, is the model's choice (log 17). -/
def Obligations.ResetHoldsEveryBlock : Prop :=
  ∀ s : State,
    (exec .resetAssert s = .next { s with
      resetLow := true
      ports := Vector.ofFn fun p : Port => { s.ports[p] with
        transaction := s.ports[p].transaction.map fun _ =>
          { taken := false, out := none, carries := false, rejectShown := false } } }) ∧
    (s.resetLow = true → ∀ i : Instr,
      (i = .tick ∨ i = .intervalBoundary ∨ i = .waitListBoundaryWork ∨ i = .secondBoundary ∨
        (∃ id : RecId, i = .setupTimerExpiry id ∨ i = .graceExpiry id ∨ i = .deadlineExpiry id) ∨
        (∃ p : Port, i = .portResetRecord p) ∨
        ∃ (q : Request) (p : Port) (tag : Byte), i = q.command p tag) → exec i s = .next s)

/-- R17, R40, R86, R110, R131, R150, R164, R179, R191 and R195: POWER_ON_RESET gives every block its power-on values,
whatever the state was, and they are those of the state after reset. The pins keep their levels and an open transaction
is dropped (log 9) and presents nothing to its end (log 15); the queue of commands is the model's own. -/
def Obligations.PowerOnResetGivesTheDefaults : Prop :=
  let values := fun (t : State) =>
    t.pool = { capacity := 1024, target := 1024, free := 1024, collected := 0, feff := 64, exhausted := false } ∧
    t.table.records = [] ∧ t.table.holdings = [] ∧ (∀ c : ClassId, t.table.classCount[c] = 0) ∧
    (∀ l : Level, t.wait.levels[l] = []) ∧ t.wait.arrival = [] ∧ t.wait.count = 0 ∧ t.wait.stalled = false ∧
    (∀ i : Fin 8, t.slots[i] = none) ∧
    t.pacing.countdown = 25 ∧ t.pacing.level = 0 ∧
    (∀ c : ClassId, t.pacing.classes[c] =
      { allowance := t.policy.rates[(0 : ProfileId)][c].reload, attempts := 0, closed := 0, exhausted := false }) ∧
    t.policy.classes[(0 : ClassId)] =
      { kind := .emergency, level := 0, preempt := true, vulnerable := false, u := 4, v := 2, hold := 20,
        continuous := true } ∧
    t.policy.classes[(1 : ClassId)] =
      { kind := .priority, level := 1, preempt := true, vulnerable := false, u := 4, v := 2, hold := 20,
        continuous := false } ∧
    (∀ c : ClassId, 2 ≤ c.val → t.policy.classes[c] =
      { kind := .general, level := 4, preempt := false, vulnerable := true, u := 2, v := 1, hold := 10,
        continuous := false }) ∧
    (∀ (p : ProfileId) (c : ClassId),
      (c.val < 2 → t.policy.rates[p][c] =
        { weight := 0, reload := 0, trickle := 0, mode := .paced, mayWait := true, waitLimit := 250 }) ∧
      (2 ≤ c.val → t.policy.rates[p][c] =
        { weight := 1, reload := 64, trickle := 1, mode := .paced, mayWait := false, waitLimit := 20 })) ∧
    (∀ p : ProfileId, t.policy.thresholds[p] = { u1 := 60, u2 := 80, u3 := 95, d1 := 50, d2 := 70, d3 := 90 } ∧
      t.policy.limits[p] = { floor := 64, interval := 25, grace := 50, stall := 20, exhaust := 16 }) ∧
    t.policy.base = 0 ∧ t.policy.generation = 0 ∧ t.policy.bars = 0 ∧
    (∀ w : WindowId, t.policy.windows[w] =
      { enabled := false, start := 0, duration := 1, daily := false, profile := 0, minimum := 0, lock := false,
        bars := 0 }) ∧
    t.time.ticks = 0 ∧ t.time.state = .unset ∧ t.time.seconds = 0 ∧ t.time.tickInSecond = 0 ∧ t.time.slew = 0 ∧
    t.time.activeWindow = none ∧ t.time.activeProfile = 0 ∧
    (∀ p : Port, t.ports[p].inflight = [] ∧ t.ports[p].responses = [] ∧ t.ports[p].reject = false ∧
      t.ports[p].notices = [] ∧ t.ports[p].events = 0 ∧ t.ports[p].enables = 0b111 ∧
      t.ports[p].stalledArm = true ∧ t.ports[p].exhaustedArm = true ∧ attnAsserted t p = false) ∧
    t.pointer = 0 ∧ t.resetLow = false
  values State.reset ∧
  ∀ s : State, ∃ t : State, exec .powerOnReset s = .next t ∧ values t ∧ t.pending = s.pending ∧
    ∀ p : Port, t.ports[p].prstLow = s.ports[p].prstLow ∧
      t.ports[p].transaction = s.ports[p].transaction.map fun _ =>
        { taken := false, out := none, carries := false, rejectShown := false }

/-! What every step keeps. -/

/-- The state after reset meets every invariant stated below. -/
def Obligations.ResetMeetsTheInvariants : Prop :=
  PoolBooks State.reset ∧ PolicyClamped State.reset ∧ PacingInRange State.reset ∧ QueuesAgree State.reset ∧
  NoticeBooks State.reset ∧ OrderBooks State.reset ∧ TableBooks State.reset ∧ FreeLast State.reset ∧
  CollectorBooks State.reset ∧ TimeInRange State.reset.time ∧ ProfileFollows State.reset

/-- R1 and R2: free, held and collected units always add up to C, and the collected total is the sum of the collected
counts; T is at most C, and Feff is that of the active profile. A record with a final notice holds no unit
(`NoticeBooks`), so that a FETCH_NOTICE that frees one returns none. -/
def Obligations.EveryStepKeepsThePoolBalanced : Prop :=
  ∀ s t : State, PoolBooks s → NoticeBooks s → PolicyClamped s → step s = .next t → PoolBooks t

/-- R133, R136, R138, R139, R146 and R157: the policy image holds clamped values only. R111, R114 and R121: an allowance
stays within 0 and R, an exhausted class is ONESHOT with allowance 0, and the pressure level stays within 0 to 3 and at or
above the minimum of the active window. -/
def Obligations.EveryStepKeepsPolicyAndPacingInRange : Prop :=
  (∀ s t : State, PolicyClamped s → step s = .next t → PolicyClamped t) ∧
  (∀ s t : State, PacingInRange s → PolicyClamped s → step s = .next t → PacingInRange t)

/-- R181, R182 and R184: each port has at most 4 requests in flight, the executed ones first, and one response queued for
each of these. -/
def Obligations.EveryStepKeepsTheQueues : Prop :=
  ∀ s t : State, QueuesAgree s → step s = .next t → QueuesAgree t

/-- R26, R165, R166 and R172: a notice list holds the records of its port that have a notice pending, once each, final
notices stand with the final states, and NOTICE is pending while the list is not empty. -/
def Obligations.EveryStepKeepsTheNotices : Prop :=
  ∀ s t : State, NoticeBooks s → step s = .next t → NoticeBooks t

/-- R24 and R64: the holding order list holds the holdings, and the wait list the waiting records and the collectors, once
each. -/
def Obligations.EveryStepKeepsTheOrders : Prop :=
  ∀ s t : State, OrderBooks s → step s = .next t → OrderBooks t

/-- R22 and R23: the class counts count the records, and no port has two live records with the same call reference. R18
and R21: while a record is not freed, no step changes its owner, its call reference, its class or a field of its
snapshot. -/
def Obligations.EveryStepKeepsTheTableAndSnapshots : Prop :=
  (∀ s t : State, TableBooks s → step s = .next t → TableBooks t) ∧
  (∀ (s t : State) (id : RecId) (r x : CallRecord), TableBooks s → step s = .next t → s.rec? id = some r →
     t.rec? id = some x → x = { r with state := x.state, notice := x.notice })

/-- R10 and R13: while a record is COLLECTING or a debt is owed, free is 0. R87 to R89: the victim lists and the
collector fields name each other, a collector's units and those of its victims cover its need, and the slots hold the
collectors. -/
def Obligations.EveryStepKeepsFreeLastAndCollectors : Prop :=
  (∀ s t : State, FreeLast s → PoolBooks s → OrderBooks s → PolicyClamped s → step s = .next t → FreeLast t) ∧
  (∀ s t : State, CollectorBooks s → FreeLast s → PoolBooks s → OrderBooks s → NoticeBooks s → PolicyClamped s →
     step s = .next t → CollectorBooks t)

/-- R132, R152 and R153: UNSET holds no time and no window, the slew remainder stays within 200 ticks, and the active profile
is that of the active window or the base profile. -/
def Obligations.EveryStepKeepsTheTime : Prop :=
  ∀ s t : State, TimeInRange s.time → ProfileFollows s → step s = .next t →
    TimeInRange t.time ∧ ProfileFollows t
end

