-- ==== Sys2Proof/Laws/State.lean ====
section
/-! SUPPORT. One lemma for each field and each plain update of State: what the update leaves alone, and the value
that it gives the field it changes. Each is true by rfl. -/

namespace Sys2Proof.Machine

@[simp] theorem State.updPort_pool (s : State) (p : Port) (f : PortState → PortState) :
    (s.updPort p f).pool = s.pool := rfl

@[simp] theorem State.updPort_table (s : State) (p : Port) (f : PortState → PortState) :
    (s.updPort p f).table = s.table := rfl

@[simp] theorem State.updPort_wait (s : State) (p : Port) (f : PortState → PortState) :
    (s.updPort p f).wait = s.wait := rfl

@[simp] theorem State.updPort_slots (s : State) (p : Port) (f : PortState → PortState) :
    (s.updPort p f).slots = s.slots := rfl

@[simp] theorem State.updPort_pacing (s : State) (p : Port) (f : PortState → PortState) :
    (s.updPort p f).pacing = s.pacing := rfl

@[simp] theorem State.updPort_policy (s : State) (p : Port) (f : PortState → PortState) :
    (s.updPort p f).policy = s.policy := rfl

@[simp] theorem State.updPort_time (s : State) (p : Port) (f : PortState → PortState) :
    (s.updPort p f).time = s.time := rfl

@[simp] theorem State.updPort_pointer (s : State) (p : Port) (f : PortState → PortState) :
    (s.updPort p f).pointer = s.pointer := rfl

@[simp] theorem State.updPort_resetLow (s : State) (p : Port) (f : PortState → PortState) :
    (s.updPort p f).resetLow = s.resetLow := rfl

@[simp] theorem State.updPort_pending (s : State) (p : Port) (f : PortState → PortState) :
    (s.updPort p f).pending = s.pending := rfl

@[simp] theorem State.updPorts_pool (s : State) (f : Port → PortState → PortState) :
    (s.updPorts f).pool = s.pool := rfl

@[simp] theorem State.updPorts_table (s : State) (f : Port → PortState → PortState) :
    (s.updPorts f).table = s.table := rfl

@[simp] theorem State.updPorts_wait (s : State) (f : Port → PortState → PortState) :
    (s.updPorts f).wait = s.wait := rfl

@[simp] theorem State.updPorts_slots (s : State) (f : Port → PortState → PortState) :
    (s.updPorts f).slots = s.slots := rfl

@[simp] theorem State.updPorts_pacing (s : State) (f : Port → PortState → PortState) :
    (s.updPorts f).pacing = s.pacing := rfl

@[simp] theorem State.updPorts_policy (s : State) (f : Port → PortState → PortState) :
    (s.updPorts f).policy = s.policy := rfl

@[simp] theorem State.updPorts_time (s : State) (f : Port → PortState → PortState) :
    (s.updPorts f).time = s.time := rfl

@[simp] theorem State.updPorts_pointer (s : State) (f : Port → PortState → PortState) :
    (s.updPorts f).pointer = s.pointer := rfl

@[simp] theorem State.updPorts_resetLow (s : State) (f : Port → PortState → PortState) :
    (s.updPorts f).resetLow = s.resetLow := rfl

@[simp] theorem State.updPorts_pending (s : State) (f : Port → PortState → PortState) :
    (s.updPorts f).pending = s.pending := rfl

@[simp] theorem State.setRec_pool (s : State) (id : RecId) (r : CallRecord) :
    (s.setRec id r).pool = s.pool := rfl

@[simp] theorem State.setRec_wait (s : State) (id : RecId) (r : CallRecord) :
    (s.setRec id r).wait = s.wait := rfl

@[simp] theorem State.setRec_slots (s : State) (id : RecId) (r : CallRecord) :
    (s.setRec id r).slots = s.slots := rfl

@[simp] theorem State.setRec_pacing (s : State) (id : RecId) (r : CallRecord) :
    (s.setRec id r).pacing = s.pacing := rfl

@[simp] theorem State.setRec_policy (s : State) (id : RecId) (r : CallRecord) :
    (s.setRec id r).policy = s.policy := rfl

@[simp] theorem State.setRec_time (s : State) (id : RecId) (r : CallRecord) :
    (s.setRec id r).time = s.time := rfl

@[simp] theorem State.setRec_ports (s : State) (id : RecId) (r : CallRecord) :
    (s.setRec id r).ports = s.ports := rfl

@[simp] theorem State.setRec_pointer (s : State) (id : RecId) (r : CallRecord) :
    (s.setRec id r).pointer = s.pointer := rfl

@[simp] theorem State.setRec_resetLow (s : State) (id : RecId) (r : CallRecord) :
    (s.setRec id r).resetLow = s.resetLow := rfl

@[simp] theorem State.setRec_pending (s : State) (id : RecId) (r : CallRecord) :
    (s.setRec id r).pending = s.pending := rfl

@[simp] theorem State.updPacing_pool (s : State) (c : ClassId) (f : ClassPacing → ClassPacing) :
    (s.updPacing c f).pool = s.pool := rfl

@[simp] theorem State.updPacing_table (s : State) (c : ClassId) (f : ClassPacing → ClassPacing) :
    (s.updPacing c f).table = s.table := rfl

@[simp] theorem State.updPacing_wait (s : State) (c : ClassId) (f : ClassPacing → ClassPacing) :
    (s.updPacing c f).wait = s.wait := rfl

@[simp] theorem State.updPacing_slots (s : State) (c : ClassId) (f : ClassPacing → ClassPacing) :
    (s.updPacing c f).slots = s.slots := rfl

@[simp] theorem State.updPacing_policy (s : State) (c : ClassId) (f : ClassPacing → ClassPacing) :
    (s.updPacing c f).policy = s.policy := rfl

@[simp] theorem State.updPacing_time (s : State) (c : ClassId) (f : ClassPacing → ClassPacing) :
    (s.updPacing c f).time = s.time := rfl

@[simp] theorem State.updPacing_ports (s : State) (c : ClassId) (f : ClassPacing → ClassPacing) :
    (s.updPacing c f).ports = s.ports := rfl

@[simp] theorem State.updPacing_pointer (s : State) (c : ClassId) (f : ClassPacing → ClassPacing) :
    (s.updPacing c f).pointer = s.pointer := rfl

@[simp] theorem State.updPacing_resetLow (s : State) (c : ClassId) (f : ClassPacing → ClassPacing) :
    (s.updPacing c f).resetLow = s.resetLow := rfl

@[simp] theorem State.updPacing_pending (s : State) (c : ClassId) (f : ClassPacing → ClassPacing) :
    (s.updPacing c f).pending = s.pending := rfl

@[simp] theorem setClassCount_pool (c : ClassId) (n : Nat) (s : State) :
    (setClassCount c n s).pool = s.pool := rfl

@[simp] theorem setClassCount_wait (c : ClassId) (n : Nat) (s : State) :
    (setClassCount c n s).wait = s.wait := rfl

@[simp] theorem setClassCount_slots (c : ClassId) (n : Nat) (s : State) :
    (setClassCount c n s).slots = s.slots := rfl

@[simp] theorem setClassCount_pacing (c : ClassId) (n : Nat) (s : State) :
    (setClassCount c n s).pacing = s.pacing := rfl

@[simp] theorem setClassCount_policy (c : ClassId) (n : Nat) (s : State) :
    (setClassCount c n s).policy = s.policy := rfl

@[simp] theorem setClassCount_time (c : ClassId) (n : Nat) (s : State) :
    (setClassCount c n s).time = s.time := rfl

@[simp] theorem setClassCount_ports (c : ClassId) (n : Nat) (s : State) :
    (setClassCount c n s).ports = s.ports := rfl

@[simp] theorem setClassCount_pointer (c : ClassId) (n : Nat) (s : State) :
    (setClassCount c n s).pointer = s.pointer := rfl

@[simp] theorem setClassCount_resetLow (c : ClassId) (n : Nat) (s : State) :
    (setClassCount c n s).resetLow = s.resetLow := rfl

@[simp] theorem setClassCount_pending (c : ClassId) (n : Nat) (s : State) :
    (setClassCount c n s).pending = s.pending := rfl

@[simp] theorem joinWait_pool (id : RecId) (l : Level) (s : State) :
    (joinWait id l s).pool = s.pool := rfl

@[simp] theorem joinWait_table (id : RecId) (l : Level) (s : State) :
    (joinWait id l s).table = s.table := rfl

@[simp] theorem joinWait_slots (id : RecId) (l : Level) (s : State) :
    (joinWait id l s).slots = s.slots := rfl

@[simp] theorem joinWait_pacing (id : RecId) (l : Level) (s : State) :
    (joinWait id l s).pacing = s.pacing := rfl

@[simp] theorem joinWait_policy (id : RecId) (l : Level) (s : State) :
    (joinWait id l s).policy = s.policy := rfl

@[simp] theorem joinWait_time (id : RecId) (l : Level) (s : State) :
    (joinWait id l s).time = s.time := rfl

@[simp] theorem joinWait_ports (id : RecId) (l : Level) (s : State) :
    (joinWait id l s).ports = s.ports := rfl

@[simp] theorem joinWait_pointer (id : RecId) (l : Level) (s : State) :
    (joinWait id l s).pointer = s.pointer := rfl

@[simp] theorem joinWait_resetLow (id : RecId) (l : Level) (s : State) :
    (joinWait id l s).resetLow = s.resetLow := rfl

@[simp] theorem joinWait_pending (id : RecId) (l : Level) (s : State) :
    (joinWait id l s).pending = s.pending := rfl

@[simp] theorem leaveWait_pool (id : RecId) (l : Level) (s : State) :
    (leaveWait id l s).pool = s.pool := rfl

@[simp] theorem leaveWait_table (id : RecId) (l : Level) (s : State) :
    (leaveWait id l s).table = s.table := rfl

@[simp] theorem leaveWait_slots (id : RecId) (l : Level) (s : State) :
    (leaveWait id l s).slots = s.slots := rfl

@[simp] theorem leaveWait_pacing (id : RecId) (l : Level) (s : State) :
    (leaveWait id l s).pacing = s.pacing := rfl

@[simp] theorem leaveWait_policy (id : RecId) (l : Level) (s : State) :
    (leaveWait id l s).policy = s.policy := rfl

@[simp] theorem leaveWait_time (id : RecId) (l : Level) (s : State) :
    (leaveWait id l s).time = s.time := rfl

@[simp] theorem leaveWait_ports (id : RecId) (l : Level) (s : State) :
    (leaveWait id l s).ports = s.ports := rfl

@[simp] theorem leaveWait_pointer (id : RecId) (l : Level) (s : State) :
    (leaveWait id l s).pointer = s.pointer := rfl

@[simp] theorem leaveWait_resetLow (id : RecId) (l : Level) (s : State) :
    (leaveWait id l s).resetLow = s.resetLow := rfl

@[simp] theorem leaveWait_pending (id : RecId) (l : Level) (s : State) :
    (leaveWait id l s).pending = s.pending := rfl

@[simp] theorem joinHoldings_pool (id : RecId) (s : State) :
    (joinHoldings id s).pool = s.pool := rfl

@[simp] theorem joinHoldings_wait (id : RecId) (s : State) :
    (joinHoldings id s).wait = s.wait := rfl

@[simp] theorem joinHoldings_slots (id : RecId) (s : State) :
    (joinHoldings id s).slots = s.slots := rfl

@[simp] theorem joinHoldings_pacing (id : RecId) (s : State) :
    (joinHoldings id s).pacing = s.pacing := rfl

@[simp] theorem joinHoldings_policy (id : RecId) (s : State) :
    (joinHoldings id s).policy = s.policy := rfl

@[simp] theorem joinHoldings_time (id : RecId) (s : State) :
    (joinHoldings id s).time = s.time := rfl

@[simp] theorem joinHoldings_ports (id : RecId) (s : State) :
    (joinHoldings id s).ports = s.ports := rfl

@[simp] theorem joinHoldings_pointer (id : RecId) (s : State) :
    (joinHoldings id s).pointer = s.pointer := rfl

@[simp] theorem joinHoldings_resetLow (id : RecId) (s : State) :
    (joinHoldings id s).resetLow = s.resetLow := rfl

@[simp] theorem joinHoldings_pending (id : RecId) (s : State) :
    (joinHoldings id s).pending = s.pending := rfl

@[simp] theorem leaveHoldings_pool (id : RecId) (s : State) :
    (leaveHoldings id s).pool = s.pool := rfl

@[simp] theorem leaveHoldings_wait (id : RecId) (s : State) :
    (leaveHoldings id s).wait = s.wait := rfl

@[simp] theorem leaveHoldings_slots (id : RecId) (s : State) :
    (leaveHoldings id s).slots = s.slots := rfl

@[simp] theorem leaveHoldings_pacing (id : RecId) (s : State) :
    (leaveHoldings id s).pacing = s.pacing := rfl

@[simp] theorem leaveHoldings_policy (id : RecId) (s : State) :
    (leaveHoldings id s).policy = s.policy := rfl

@[simp] theorem leaveHoldings_time (id : RecId) (s : State) :
    (leaveHoldings id s).time = s.time := rfl

@[simp] theorem leaveHoldings_ports (id : RecId) (s : State) :
    (leaveHoldings id s).ports = s.ports := rfl

@[simp] theorem leaveHoldings_pointer (id : RecId) (s : State) :
    (leaveHoldings id s).pointer = s.pointer := rfl

@[simp] theorem leaveHoldings_resetLow (id : RecId) (s : State) :
    (leaveHoldings id s).resetLow = s.resetLow := rfl

@[simp] theorem leaveHoldings_pending (id : RecId) (s : State) :
    (leaveHoldings id s).pending = s.pending := rfl

@[simp] theorem freeSlot_pool (id : RecId) (s : State) :
    (freeSlot id s).pool = s.pool := rfl

@[simp] theorem freeSlot_table (id : RecId) (s : State) :
    (freeSlot id s).table = s.table := rfl

@[simp] theorem freeSlot_wait (id : RecId) (s : State) :
    (freeSlot id s).wait = s.wait := rfl

@[simp] theorem freeSlot_pacing (id : RecId) (s : State) :
    (freeSlot id s).pacing = s.pacing := rfl

@[simp] theorem freeSlot_policy (id : RecId) (s : State) :
    (freeSlot id s).policy = s.policy := rfl

@[simp] theorem freeSlot_time (id : RecId) (s : State) :
    (freeSlot id s).time = s.time := rfl

@[simp] theorem freeSlot_ports (id : RecId) (s : State) :
    (freeSlot id s).ports = s.ports := rfl

@[simp] theorem freeSlot_pointer (id : RecId) (s : State) :
    (freeSlot id s).pointer = s.pointer := rfl

@[simp] theorem freeSlot_resetLow (id : RecId) (s : State) :
    (freeSlot id s).resetLow = s.resetLow := rfl

@[simp] theorem freeSlot_pending (id : RecId) (s : State) :
    (freeSlot id s).pending = s.pending := rfl

@[simp] theorem raiseAll_pool (e : Event) (s : State) :
    (raiseAll e s).pool = s.pool := rfl

@[simp] theorem raiseAll_table (e : Event) (s : State) :
    (raiseAll e s).table = s.table := rfl

@[simp] theorem raiseAll_wait (e : Event) (s : State) :
    (raiseAll e s).wait = s.wait := rfl

@[simp] theorem raiseAll_slots (e : Event) (s : State) :
    (raiseAll e s).slots = s.slots := rfl

@[simp] theorem raiseAll_pacing (e : Event) (s : State) :
    (raiseAll e s).pacing = s.pacing := rfl

@[simp] theorem raiseAll_policy (e : Event) (s : State) :
    (raiseAll e s).policy = s.policy := rfl

@[simp] theorem raiseAll_time (e : Event) (s : State) :
    (raiseAll e s).time = s.time := rfl

@[simp] theorem raiseAll_pointer (e : Event) (s : State) :
    (raiseAll e s).pointer = s.pointer := rfl

@[simp] theorem raiseAll_resetLow (e : Event) (s : State) :
    (raiseAll e s).resetLow = s.resetLow := rfl

@[simp] theorem raiseAll_pending (e : Event) (s : State) :
    (raiseAll e s).pending = s.pending := rfl

@[simp] theorem raiseOthers_pool (p : Port) (e : Event) (s : State) :
    (raiseOthers p e s).pool = s.pool := rfl

@[simp] theorem raiseOthers_table (p : Port) (e : Event) (s : State) :
    (raiseOthers p e s).table = s.table := rfl

@[simp] theorem raiseOthers_wait (p : Port) (e : Event) (s : State) :
    (raiseOthers p e s).wait = s.wait := rfl

@[simp] theorem raiseOthers_slots (p : Port) (e : Event) (s : State) :
    (raiseOthers p e s).slots = s.slots := rfl

@[simp] theorem raiseOthers_pacing (p : Port) (e : Event) (s : State) :
    (raiseOthers p e s).pacing = s.pacing := rfl

@[simp] theorem raiseOthers_policy (p : Port) (e : Event) (s : State) :
    (raiseOthers p e s).policy = s.policy := rfl

@[simp] theorem raiseOthers_time (p : Port) (e : Event) (s : State) :
    (raiseOthers p e s).time = s.time := rfl

@[simp] theorem raiseOthers_pointer (p : Port) (e : Event) (s : State) :
    (raiseOthers p e s).pointer = s.pointer := rfl

@[simp] theorem raiseOthers_resetLow (p : Port) (e : Event) (s : State) :
    (raiseOthers p e s).resetLow = s.resetLow := rfl

@[simp] theorem raiseOthers_pending (p : Port) (e : Event) (s : State) :
    (raiseOthers p e s).pending = s.pending := rfl

@[simp] theorem State.respond_pool (s : State) (p : Port) (r : ResultCode) (bs : List Byte) :
    (s.respond p r bs).pool = s.pool := rfl

@[simp] theorem State.respond_table (s : State) (p : Port) (r : ResultCode) (bs : List Byte) :
    (s.respond p r bs).table = s.table := rfl

@[simp] theorem State.respond_wait (s : State) (p : Port) (r : ResultCode) (bs : List Byte) :
    (s.respond p r bs).wait = s.wait := rfl

@[simp] theorem State.respond_slots (s : State) (p : Port) (r : ResultCode) (bs : List Byte) :
    (s.respond p r bs).slots = s.slots := rfl

@[simp] theorem State.respond_pacing (s : State) (p : Port) (r : ResultCode) (bs : List Byte) :
    (s.respond p r bs).pacing = s.pacing := rfl

@[simp] theorem State.respond_policy (s : State) (p : Port) (r : ResultCode) (bs : List Byte) :
    (s.respond p r bs).policy = s.policy := rfl

@[simp] theorem State.respond_time (s : State) (p : Port) (r : ResultCode) (bs : List Byte) :
    (s.respond p r bs).time = s.time := rfl

@[simp] theorem State.respond_pointer (s : State) (p : Port) (r : ResultCode) (bs : List Byte) :
    (s.respond p r bs).pointer = s.pointer := rfl

@[simp] theorem State.respond_resetLow (s : State) (p : Port) (r : ResultCode) (bs : List Byte) :
    (s.respond p r bs).resetLow = s.resetLow := rfl

@[simp] theorem State.respond_pending (s : State) (p : Port) (r : ResultCode) (bs : List Byte) :
    (s.respond p r bs).pending = s.pending := rfl

@[simp] theorem State.setRec_table_records (s : State) (id : RecId) (r : CallRecord) :
    (s.setRec id r).table.records = putRec s.table.records id r := rfl

@[simp] theorem State.setRec_table_holdings (s : State) (id : RecId) (r : CallRecord) :
    (s.setRec id r).table.holdings = s.table.holdings := rfl

@[simp] theorem State.setRec_table_classCount (s : State) (id : RecId) (r : CallRecord) :
    (s.setRec id r).table.classCount = s.table.classCount := rfl

@[simp] theorem setClassCount_table_records (c : ClassId) (n : Nat) (s : State) :
    (setClassCount c n s).table.records = s.table.records := rfl

@[simp] theorem setClassCount_table_holdings (c : ClassId) (n : Nat) (s : State) :
    (setClassCount c n s).table.holdings = s.table.holdings := rfl

@[simp] theorem setClassCount_table_classCount (c : ClassId) (n : Nat) (s : State) :
    (setClassCount c n s).table.classCount = s.table.classCount.set c n := rfl

@[simp] theorem joinHoldings_table_records (id : RecId) (s : State) :
    (joinHoldings id s).table.records = s.table.records := rfl

@[simp] theorem joinHoldings_table_holdings (id : RecId) (s : State) :
    (joinHoldings id s).table.holdings = s.table.holdings ++ [id] := rfl

@[simp] theorem joinHoldings_table_classCount (id : RecId) (s : State) :
    (joinHoldings id s).table.classCount = s.table.classCount := rfl

@[simp] theorem leaveHoldings_table_records (id : RecId) (s : State) :
    (leaveHoldings id s).table.records = s.table.records := rfl

@[simp] theorem leaveHoldings_table_holdings (id : RecId) (s : State) :
    (leaveHoldings id s).table.holdings = s.table.holdings.filter (· != id) := rfl

@[simp] theorem leaveHoldings_table_classCount (id : RecId) (s : State) :
    (leaveHoldings id s).table.classCount = s.table.classCount := rfl

@[simp] theorem joinWait_wait_levels (id : RecId) (l : Level) (s : State) :
    (joinWait id l s).wait.levels = s.wait.levels.set l (s.wait.levels[l] ++ [id]) := rfl

@[simp] theorem joinWait_wait_arrival (id : RecId) (l : Level) (s : State) :
    (joinWait id l s).wait.arrival = s.wait.arrival ++ [id] := rfl

@[simp] theorem joinWait_wait_count (id : RecId) (l : Level) (s : State) :
    (joinWait id l s).wait.count = s.wait.count + 1 := rfl

@[simp] theorem joinWait_wait_stalled (id : RecId) (l : Level) (s : State) :
    (joinWait id l s).wait.stalled = s.wait.stalled := rfl

@[simp] theorem joinWait_wait_boundaryDue (id : RecId) (l : Level) (s : State) :
    (joinWait id l s).wait.boundaryDue = s.wait.boundaryDue := rfl

@[simp] theorem leaveWait_wait_levels (id : RecId) (l : Level) (s : State) :
    (leaveWait id l s).wait.levels = s.wait.levels.set l (s.wait.levels[l].filter (· != id)) := rfl

@[simp] theorem leaveWait_wait_arrival (id : RecId) (l : Level) (s : State) :
    (leaveWait id l s).wait.arrival = s.wait.arrival.filter (· != id) := rfl

@[simp] theorem leaveWait_wait_count (id : RecId) (l : Level) (s : State) :
    (leaveWait id l s).wait.count = s.wait.count - 1 := rfl

@[simp] theorem leaveWait_wait_stalled (id : RecId) (l : Level) (s : State) :
    (leaveWait id l s).wait.stalled = s.wait.stalled := rfl

@[simp] theorem leaveWait_wait_boundaryDue (id : RecId) (l : Level) (s : State) :
    (leaveWait id l s).wait.boundaryDue = s.wait.boundaryDue := rfl

@[simp] theorem State.updPacing_pacing_countdown (s : State) (c : ClassId) (f : ClassPacing → ClassPacing) :
    (s.updPacing c f).pacing.countdown = s.pacing.countdown := rfl

@[simp] theorem State.updPacing_pacing_level (s : State) (c : ClassId) (f : ClassPacing → ClassPacing) :
    (s.updPacing c f).pacing.level = s.pacing.level := rfl

@[simp] theorem State.updPacing_pacing_boundaryDue (s : State) (c : ClassId) (f : ClassPacing → ClassPacing) :
    (s.updPacing c f).pacing.boundaryDue = s.pacing.boundaryDue := rfl

@[simp] theorem State.updPacing_pacing_reloadOpen (s : State) (c : ClassId) (f : ClassPacing → ClassPacing) :
    (s.updPacing c f).pacing.reloadOpen = s.pacing.reloadOpen := rfl

@[simp] theorem State.updPacing_pacing_classes (s : State) (c : ClassId) (f : ClassPacing → ClassPacing) :
    (s.updPacing c f).pacing.classes = s.pacing.classes.set c (f s.pacing.classes[c]) := rfl

/-- The port that an update names holds the changed value. The primed forms read a port by the value of its
number, which is the form that simp brings every reading into. -/
theorem State.updPort_self (s : State) (p : Port) (f : PortState → PortState) :
    (s.updPort p f).ports[p] = f s.ports[p] := by
  simp [State.updPort]

@[simp] theorem State.updPort_self' (s : State) (p : Port) (f : PortState → PortState) :
    (s.updPort p f).ports[p.val] = f s.ports[p.val] := by
  simp [State.updPort]

/-- The other ports keep theirs. -/
theorem State.updPort_other (s : State) (p q : Port) (f : PortState → PortState) (h : q ≠ p) :
    (s.updPort p f).ports[q] = s.ports[q] := by
  have hv : ¬ (p.val = q.val) := fun e => h (Fin.ext e.symm)
  simp [State.updPort, hv]

theorem State.updPorts_at (s : State) (f : Port → PortState → PortState) (p : Port) :
    (s.updPorts f).ports[p] = f p s.ports[p] := by
  simp [State.updPorts]

@[simp] theorem State.updPorts_at' (s : State) (f : Port → PortState → PortState) (p : Port) :
    (s.updPorts f).ports[p.val] = f p s.ports[p.val] := by
  simp [State.updPorts]

theorem State.updPacing_self (s : State) (c : ClassId) (f : ClassPacing → ClassPacing) :
    (s.updPacing c f).pacing.classes[c] = f s.pacing.classes[c] := by
  simp [State.updPacing]

@[simp] theorem State.updPacing_self' (s : State) (c : ClassId) (f : ClassPacing → ClassPacing) :
    (s.updPacing c f).pacing.classes[c.val] = f s.pacing.classes[c.val] := by
  simp [State.updPacing]

theorem State.updPacing_other (s : State) (c d : ClassId) (f : ClassPacing → ClassPacing) (h : d ≠ c) :
    (s.updPacing c f).pacing.classes[d] = s.pacing.classes[d] := by
  have hv : ¬ (c.val = d.val) := fun e => h (Fin.ext e.symm)
  simp [State.updPacing, hv]

/-- Reading a record depends on the list of records alone. -/
theorem State.rec?_eq (s t : State) (id : RecId) (h : s.table.records = t.table.records) :
    s.rec? id = t.rec? id := by
  unfold State.rec?
  rw [h]

end Sys2Proof.Machine
end

