-- ==== Sys2Proof/Laws/Table.lean ====
section
/-! SUPPORT. The list of records: reading after storing and erasing, the order of ids, the lowest free id, and sums
over the records. -/

namespace Sys2Proof.Machine

theorem findRec_putRec_self (rs : List (RecId × CallRecord)) (id : RecId) (r : CallRecord) :
    findRec (putRec rs id r) id = some r := by
  induction rs with
  | nil => simp [putRec, findRec]
  | cons e rest ih =>
    obtain ⟨k, x⟩ := e
    unfold putRec
    split
    · simp [findRec]
    · split
      · simp [findRec]
      · next h => simp [findRec, Ne.symm h, ih]

theorem findRec_putRec_other (rs : List (RecId × CallRecord)) (id j : RecId) (r : CallRecord) (h : j ≠ id) :
    findRec (putRec rs id r) j = findRec rs j := by
  induction rs with
  | nil => simp [putRec, findRec, Ne.symm h]
  | cons e rest ih =>
    obtain ⟨k, x⟩ := e
    unfold putRec
    split
    · simp [findRec, Ne.symm h]
    · split
      · next hk => subst hk; simp [findRec, Ne.symm h]
      · simp [findRec, ih]

/-- A stored record is read back. -/
@[simp] theorem State.rec?_setRec_self (s : State) (id : RecId) (r : CallRecord) :
    (s.setRec id r).rec? id = some r := findRec_putRec_self _ _ _

/-- Storing a record leaves the others alone. -/
theorem State.rec?_setRec_other (s : State) (id j : RecId) (r : CallRecord) (h : j ≠ id) :
    (s.setRec id r).rec? j = s.rec? j := findRec_putRec_other _ _ _ _ h

theorem idsRise_tail {e : RecId × CallRecord} {rs : List (RecId × CallRecord)} (h : idsRise (e :: rs) = true) :
    idsRise rs = true := by
  cases rs with
  | nil => rfl
  | cons f rest => obtain ⟨i, x⟩ := e; obtain ⟨j, y⟩ := f; simp [idsRise] at h; exact h.2

/-- Every id after the head of a rising list is greater than the head's. -/
theorem idsRise_lt {k : RecId} {x : CallRecord} {rs : List (RecId × CallRecord)}
    (h : idsRise ((k, x) :: rs) = true) : ∀ e ∈ rs, k < e.1 := by
  induction rs generalizing k x with
  | nil => simp
  | cons f rest ih =>
    obtain ⟨j, y⟩ := f
    have h2 : k < j ∧ idsRise ((j, y) :: rest) = true := by simpa [idsRise] using h
    intro e he
    rcases List.mem_cons.mp he with rfl | he'
    · exact h2.1
    · exact Nat.lt_trans h2.1 (ih h2.2 e he')

theorem idsRise_cons {k : RecId} {x : CallRecord} {rs : List (RecId × CallRecord)}
    (h : idsRise rs = true) (hlt : ∀ e ∈ rs, k < e.1) : idsRise ((k, x) :: rs) = true := by
  cases rs with
  | nil => rfl
  | cons f rest =>
    obtain ⟨j, y⟩ := f
    simp [idsRise, h, hlt (j, y) (by simp)]

theorem mem_putRec {rs : List (RecId × CallRecord)} {id : RecId} {r : CallRecord} {e : RecId × CallRecord}
    (h : e ∈ putRec rs id r) : e = (id, r) ∨ e ∈ rs := by
  induction rs with
  | nil => simpa [putRec] using h
  | cons f rest ih =>
    obtain ⟨k, x⟩ := f
    unfold putRec at h
    split at h
    · simpa using h
    · split at h
      · rcases List.mem_cons.mp h with rfl | h'
        · exact .inl rfl
        · exact .inr (List.mem_cons_of_mem _ h')
      · rcases List.mem_cons.mp h with rfl | h'
        · exact .inr (by simp)
        · rcases ih h' with rfl | h''
          · exact .inl rfl
          · exact .inr (List.mem_cons_of_mem _ h'')

/-- Storing a record keeps the ids rising. -/
theorem idsRise_putRec {rs : List (RecId × CallRecord)} (id : RecId) (r : CallRecord)
    (h : idsRise rs = true) : idsRise (putRec rs id r) = true := by
  induction rs with
  | nil => rfl
  | cons f rest ih =>
    obtain ⟨k, x⟩ := f
    have hlt := idsRise_lt h
    unfold putRec
    split
    · next hid =>
      refine idsRise_cons h fun e he => ?_
      rcases List.mem_cons.mp he with rfl | he'
      · exact hid
      · exact Nat.lt_trans hid (hlt e he')
    · split
      · next hk => subst hk; exact idsRise_cons (idsRise_tail h) hlt
      · next h1 h2 =>
        refine idsRise_cons (ih (idsRise_tail h)) fun e he => ?_
        rcases mem_putRec he with rfl | he'
        · exact Nat.lt_of_le_of_ne (Nat.le_of_not_lt h1) (Ne.symm h2)
        · exact hlt e he'

theorem mem_of_mem_eraseRec {rs : List (RecId × CallRecord)} {id : RecId} {e : RecId × CallRecord}
    (h : e ∈ eraseRec rs id) : e ∈ rs := by
  induction rs with
  | nil => simp [eraseRec] at h
  | cons f rest ih =>
    obtain ⟨k, x⟩ := f
    unfold eraseRec at h
    split at h
    · exact List.mem_cons_of_mem _ h
    · rcases List.mem_cons.mp h with rfl | h'
      · simp
      · exact List.mem_cons_of_mem _ (ih h')

/-- Erasing a record keeps the ids rising. -/
theorem idsRise_eraseRec {rs : List (RecId × CallRecord)} (id : RecId) (h : idsRise rs = true) :
    idsRise (eraseRec rs id) = true := by
  induction rs with
  | nil => rfl
  | cons f rest ih =>
    obtain ⟨k, x⟩ := f
    unfold eraseRec
    split
    · exact idsRise_tail h
    · exact idsRise_cons (ih (idsRise_tail h)) fun e he => idsRise_lt h e (mem_of_mem_eraseRec he)

theorem findRec_none_of_lt {rs : List (RecId × CallRecord)} {id : RecId} (h : ∀ e ∈ rs, id < e.1) :
    findRec rs id = none := by
  induction rs with
  | nil => rfl
  | cons f rest ih =>
    obtain ⟨k, x⟩ := f
    have hk : id < k := h (k, x) (by simp)
    have hne : k ≠ id := Nat.ne_of_gt hk
    simp [findRec, hne, ih fun e he => h e (List.mem_cons_of_mem _ he)]

/-- An erased id is FREE. -/
theorem findRec_eraseRec_self {rs : List (RecId × CallRecord)} (id : RecId) (h : idsRise rs = true) :
    findRec (eraseRec rs id) id = none := by
  induction rs with
  | nil => rfl
  | cons f rest ih =>
    obtain ⟨k, x⟩ := f
    unfold eraseRec
    split
    · next hk => subst hk; exact findRec_none_of_lt (idsRise_lt h)
    · next hk => simp [findRec, hk, ih (idsRise_tail h)]

theorem findRec_eraseRec_other (rs : List (RecId × CallRecord)) (id j : RecId) (h : j ≠ id) :
    findRec (eraseRec rs id) j = findRec rs j := by
  induction rs with
  | nil => rfl
  | cons f rest ih =>
    obtain ⟨k, x⟩ := f
    unfold eraseRec
    split
    · next hk => subst hk; simp [findRec, Ne.symm h]
    · simp [findRec, ih]

/-- In a rising list the records that are read are those of the list. -/
theorem mem_iff_findRec {rs : List (RecId × CallRecord)} (h : idsRise rs = true) (id : RecId) (r : CallRecord) :
    (id, r) ∈ rs ↔ findRec rs id = some r := by
  induction rs with
  | nil => simp [findRec]
  | cons f rest ih =>
    obtain ⟨k, x⟩ := f
    have hlt := idsRise_lt h
    by_cases hk : k = id
    · subst hk
      simp only [findRec, if_true, List.mem_cons, Prod.mk.injEq, true_and, Option.some.injEq]
      constructor
      · rintro (rfl | hm)
        · rfl
        · exact absurd (hlt _ hm) (Nat.lt_irrefl _)
      · rintro rfl; exact .inl rfl
    · simp only [findRec, hk, if_false, List.mem_cons, Prod.mk.injEq]
      rw [← ih (idsRise_tail h)]
      constructor
      · rintro (⟨rfl, _⟩ | hm)
        · exact absurd rfl hk
        · exact hm
      · exact .inr

/-- The lowest id that is not listed is FREE (R20). -/
theorem findRec_lowestFreeFrom (k : RecId) (rs : List (RecId × CallRecord)) (h : idsRise rs = true)
    (hk : ∀ e ∈ rs, k ≤ e.1) : findRec rs (lowestFreeFrom k rs) = none ∧ k ≤ lowestFreeFrom k rs := by
  induction rs generalizing k with
  | nil => exact ⟨rfl, Nat.le_refl k⟩
  | cons f rest ih =>
    obtain ⟨i, x⟩ := f
    have hlt := idsRise_lt h
    unfold lowestFreeFrom
    split
    · next hi =>
      subst hi
      have h2 := ih (i + 1) (idsRise_tail h) fun e he => hlt e he
      refine ⟨?_, Nat.le_of_succ_le h2.2⟩
      have hne : i ≠ lowestFreeFrom (i + 1) rest := Nat.ne_of_lt h2.2
      simp [findRec, hne, h2.1]
    · next hi =>
      have hki : k < i := Nat.lt_of_le_of_ne (hk (i, x) (by simp)) (Ne.symm hi)
      refine ⟨findRec_none_of_lt fun e he => ?_, Nat.le_refl k⟩
      rcases List.mem_cons.mp he with rfl | he'
      · exact hki
      · exact Nat.lt_trans hki (hlt e he')

/-- The record that an allocation takes is FREE (R20). -/
theorem State.rec?_lowestFree (s : State) (h : idsRise s.table.records = true) : s.rec? s.lowestFree = none :=
  (findRec_lowestFreeFrom 0 s.table.records h fun _ _ => Nat.zero_le _).1

/-- The sum over the records after a FREE id is stored. -/
theorem sumOver_putRec_new (q : CallRecord → Nat) (rs : List (RecId × CallRecord)) (id : RecId) (r : CallRecord)
    (h : findRec rs id = none) : sumOver q (putRec rs id r) = q r + sumOver q rs := by
  induction rs with
  | nil => rfl
  | cons f rest ih =>
    obtain ⟨k, x⟩ := f
    have hk : k ≠ id := fun e => by subst e; simp [findRec] at h
    have hr : findRec rest id = none := by simpa [findRec, hk] using h
    unfold putRec
    split
    · rfl
    · simp only [Ne.symm hk, if_false, sumOver, ih hr]; omega

/-- The sum over the records after a record is replaced. -/
theorem sumOver_putRec_old (q : CallRecord → Nat) (rs : List (RecId × CallRecord)) (id : RecId)
    (r x : CallRecord) (hs : idsRise rs = true) (h : findRec rs id = some x) :
    sumOver q (putRec rs id r) + q x = q r + sumOver q rs := by
  induction rs with
  | nil => simp [findRec] at h
  | cons f rest ih =>
    obtain ⟨k, y⟩ := f
    by_cases hk : k = id
    · subst hk
      have hy : y = x := by simpa [findRec] using h
      subst hy
      simp only [putRec, Nat.lt_irrefl, if_false, if_true, sumOver]; omega
    · have hr : findRec rest id = some x := by simpa [findRec, hk] using h
      have hlt : ¬ id < k := by
        intro hid
        have hm := (mem_iff_findRec (idsRise_tail hs) id x).mpr hr
        exact absurd (idsRise_lt hs _ hm) (Nat.not_lt.mpr (Nat.le_of_lt hid))
      have h2 := ih (idsRise_tail hs) hr
      simp only [putRec, hlt, Ne.symm hk, if_false, sumOver]; omega

/-- The sum over the records after a record is erased. -/
theorem sumOver_eraseRec (q : CallRecord → Nat) (rs : List (RecId × CallRecord)) (id : RecId) (x : CallRecord)
    (h : findRec rs id = some x) : sumOver q (eraseRec rs id) + q x = sumOver q rs := by
  induction rs with
  | nil => simp [findRec] at h
  | cons f rest ih =>
    obtain ⟨k, y⟩ := f
    by_cases hk : k = id
    · subst hk
      have hy : y = x := by simpa [findRec] using h
      subst hy
      simp only [eraseRec, if_true, sumOver]; omega
    · have hr : findRec rest id = some x := by simpa [findRec, hk] using h
      have h2 := ih hr
      simp only [eraseRec, hk, if_false, sumOver]; omega

end Sys2Proof.Machine
end

