-- ==== Sys2Proof/Laws/Checks.lean ====
section
/-! SUPPORT. The books of Safety.lean as checks that evaluate on a concrete state, each with the lemma that the check
gives the predicate. The tests use them to show states that meet the hypotheses of the statements. -/

namespace Sys2Proof.Machine

/-- A record with an id is an entry of the list, where the ids rise. -/
theorem State.rec?_eq_some {s : State} (h : idsRise s.table.records = true) (id : RecId) (r : CallRecord) :
    s.rec? id = some r ↔ (id, r) ∈ s.table.records :=
  (mem_iff_findRec h id r).symm

/-- See `TableBooks`. -/
def tableCheck (s : State) : Bool :=
  idsRise s.table.records && s.table.records.all (fun e => decide (e.1 < Config.records)) &&
  decide (∀ c : ClassId, s.table.classCount[c] = (s.table.records.filter fun e => e.2.cls = c).length) &&
  s.table.records.all fun a => s.table.records.all fun b =>
    !(a.2.isLive && b.2.isLive && a.2.owner == b.2.owner && a.2.ref == b.2.ref) || a.1 == b.1

theorem tableBooks_of_check {s : State} (h : tableCheck s = true) : TableBooks s := by
  simp only [tableCheck, Bool.and_eq_true, decide_eq_true_eq, List.all_eq_true] at h
  obtain ⟨⟨⟨h1, h2⟩, h3⟩, h4⟩ := h
  refine ⟨h1, h2, h3, fun i j r x hr hx lr lx ho hf => ?_⟩
  have := h4 _ ((State.rec?_eq_some h1 i r).1 hr) _ ((State.rec?_eq_some h1 j x).1 hx)
  simpa [lr, lx, ho, hf] using this

/-- See `NoticeBooks`. -/
def noticeCheck (s : State) : Bool :=
  idsRise s.table.records &&
  decide (∀ p : Port, (s.ports[p].notices.all fun id => (s.rec? id).any fun r => r.owner == p && r.notice.isSome) = true) &&
  s.table.records.all (fun e => e.2.notice.isNone || s.ports[e.2.owner].notices.contains e.1) &&
  decide (∀ p : Port, s.ports[p].notices.Nodup) &&
  s.table.records.all (fun e => decide ((e.2.state = .reclaimed ↔ e.2.notice = some .reclaimed) ∧
    (e.2.state = .expired ↔ e.2.notice = some .expired))) &&
  decide (∀ p : Port, s.ports[p].events.getLsbD Event.notice.num = !s.ports[p].notices.isEmpty)

theorem noticeBooks_of_check {s : State} (h : noticeCheck s = true) : NoticeBooks s := by
  simp only [noticeCheck, Bool.and_eq_true, decide_eq_true_eq, List.all_eq_true] at h
  obtain ⟨⟨⟨⟨⟨h1, h2⟩, h3⟩, h4⟩, h5⟩, h6⟩ := h
  refine ⟨h1, fun p id => ⟨fun hm => ?_, ?_⟩, h4, fun id r hr => h5 _ ((State.rec?_eq_some h1 id r).1 hr), h6⟩
  · obtain ⟨r, hr, hp⟩ := (Option.any_eq_true _ _).1 (h2 p id hm)
    simp only [Bool.and_eq_true, beq_iff_eq, Option.isSome_iff_ne_none] at hp
    exact ⟨r, hr, hp.1, hp.2⟩
  · rintro ⟨r, hr, rfl, hn⟩
    have := h3 _ ((State.rec?_eq_some h1 id r).1 hr)
    simpa [hn] using this

/-- A record stands in the wait list. -/
def CallRecord.inWait (r : CallRecord) : Bool := r.isWaiting || r.isCollecting

/-- See `OrderBooks`. -/
def orderCheck (s : State) : Bool :=
  idsRise s.table.records &&
  s.table.holdings.all (fun id => (s.rec? id).any (·.isHolding)) &&
  s.table.records.all (fun e => !e.2.isHolding || s.table.holdings.contains e.1) &&
  decide s.table.holdings.Nodup &&
  s.wait.arrival.all (fun id => (s.rec? id).any (·.inWait)) &&
  s.table.records.all (fun e => !e.2.inWait || s.wait.arrival.contains e.1) &&
  decide s.wait.arrival.Nodup &&
  decide (∀ l : Level,
    (s.wait.levels[l].all fun id => (s.rec? id).any fun r => r.inWait && r.level == l) = true) &&
  s.table.records.all (fun e => !e.2.inWait || s.wait.levels[e.2.level].contains e.1) &&
  decide (∀ l : Level, s.wait.levels[l].Nodup) &&
  s.wait.count == s.wait.arrival.length

theorem orderBooks_of_check {s : State} (h : orderCheck s = true) : OrderBooks s := by
  simp only [orderCheck, Bool.and_eq_true, decide_eq_true_eq, List.all_eq_true, beq_iff_eq] at h
  obtain ⟨⟨⟨⟨⟨⟨⟨⟨⟨⟨h1, h2⟩, h3⟩, h4⟩, h5⟩, h6⟩, h7⟩, h8⟩, h9⟩, h10⟩, h11⟩ := h
  have mem := State.rec?_eq_some h1
  refine ⟨h1, fun id => ⟨fun hm => ?_, ?_⟩, h4, fun id => ⟨fun hm => ?_, ?_⟩, h7, fun l id => ⟨fun hm => ?_, ?_⟩,
    h10, h11⟩
  · exact (Option.any_eq_true _ _).1 (h2 id hm)
  · rintro ⟨r, hr, hh⟩
    simpa [hh] using h3 _ ((mem id r).1 hr)
  · exact (Option.any_eq_true _ _).1 (h5 id hm)
  · rintro ⟨r, hr, hh⟩
    have := h6 _ ((mem id r).1 hr)
    simpa [CallRecord.inWait, hh] using this
  · obtain ⟨r, hr, hp⟩ := (Option.any_eq_true _ _).1 (h8 l id hm)
    simp only [Bool.and_eq_true, beq_iff_eq] at hp
    exact ⟨r, hr, hp.1, hp.2⟩
  · rintro ⟨r, hr, hh, rfl⟩
    have := h9 _ ((mem id r).1 hr)
    simpa [CallRecord.inWait, hh] using this

/-- See `CollectorBooks`. -/
def collectorCheck (s : State) : Bool :=
  idsRise s.table.records &&
  s.table.records.all (fun e =>
    match e.2.state with
    | .collecting w n vs =>
      decide (1 ≤ vs.length) && decide (vs.length ≤ Config.victimLimit) && decide vs.Nodup &&
      decide (w.need ≤ n + s.unitsOf vs) && vs.all fun v =>
        (s.rec? v).any fun x =>
          match x.state with
          | .preemptPending _ _ c => c == e.1 && decide (e.2.level < x.level)
          | _ => false
    | .preemptPending _ _ c =>
      (s.rec? c).any fun r =>
        match r.state with
        | .collecting _ _ vs => vs.contains e.1
        | _ => false
    | _ => true) &&
  decide (∀ i : Fin 8, (s.slots[i].all fun id => (s.rec? id).any (·.isCollecting)) = true) &&
  s.table.records.all (fun e => !e.2.isCollecting || decide (∃ i : Fin 8, s.slots[i] = some e.1)) &&
  decide (∀ i j : Fin 8, s.slots[i] = s.slots[j] → s.slots[i].isNone = false → i = j)

theorem collectorBooks_of_check {s : State} (h : collectorCheck s = true) : CollectorBooks s := by
  simp only [collectorCheck, Bool.and_eq_true, decide_eq_true_eq, List.all_eq_true] at h
  obtain ⟨⟨⟨⟨h1, h2⟩, h3⟩, h4⟩, h5⟩ := h
  have mem := State.rec?_eq_some h1
  refine ⟨?_, ?_, fun id => ⟨?_, ?_⟩, ?_⟩
  · intro id r w n vs hr hs
    have := h2 _ ((mem id r).1 hr)
    simp only [hs, Bool.and_eq_true, decide_eq_true_eq, List.all_eq_true] at this
    obtain ⟨⟨⟨⟨a1, a2⟩, a3⟩, a4⟩, a5⟩ := this
    refine ⟨a1, a2, a3, a4, fun v hv => ?_⟩
    obtain ⟨x, hx, hp⟩ := (Option.any_eq_true _ _).1 (a5 v hv)
    split at hp
    · rename_i h0 g c hst
      simp only [Bool.and_eq_true, beq_iff_eq, decide_eq_true_eq] at hp
      exact ⟨x, h0, g, hx, by rw [hst, hp.1], hp.2⟩
    · exact absurd hp (by simp)
  · intro id x h0 g c hx hs
    have := h2 _ ((mem id x).1 hx)
    simp only [hs] at this
    obtain ⟨r, hr, hp⟩ := (Option.any_eq_true _ _).1 this
    split at hp
    · rename_i w n vs hst
      exact ⟨r, w, n, vs, hr, hst, by simpa using hp⟩
    · exact absurd hp (by simp)
  · rintro ⟨i, hi⟩
    have := h3 i
    rw [hi] at this
    exact (Option.any_eq_true _ _).1 (by simpa using this)
  · rintro ⟨r, hr, hc⟩
    have := h4 _ ((mem id r).1 hr)
    simpa [hc] using this
  · intro i j id hi hj
    exact h5 i j (hi.trans hj.symm) (by rw [hi]; rfl)

/-- See `FreeLast`. -/
def freeLastCheck (s : State) : Bool :=
  s.pool.free == 0 || (s.pool.debt == 0 && idsRise s.table.records && s.table.records.all fun e => !e.2.isCollecting)

theorem freeLast_of_check {s : State} (h : freeLastCheck s = true) : FreeLast s := by
  simp only [freeLastCheck, Bool.or_eq_true, Bool.and_eq_true, beq_iff_eq, List.all_eq_true] at h
  rintro (hd | ⟨id, r, hr, hc⟩)
  · rcases h with h | ⟨⟨h1, _⟩, _⟩
    · exact h
    · omega
  · rcases h with h | ⟨⟨_, h2⟩, h3⟩
    · exact h
    · have := h3 _ ((State.rec?_eq_some h2 id r).1 hr)
      simp [hc] at this

/-- A port has no live record of a reference. See `PassesChecks`. -/
def freshCheck (s : State) (p : Port) (ref : Half) : Bool :=
  idsRise s.table.records && s.table.records.all fun e => !(e.2.isLive && e.2.owner == p && e.2.ref == ref)

theorem fresh_of_check {s : State} {p : Port} {ref : Half} (h : freshCheck s p ref = true) (id : RecId)
    (r : CallRecord) (hr : s.rec? id = some r) : ¬ (r.isLive = true ∧ r.owner = p ∧ r.ref = ref) := by
  simp only [freshCheck, Bool.and_eq_true, List.all_eq_true] at h
  have := h.2 _ ((State.rec?_eq_some h.1 id r).1 hr)
  rintro ⟨h1, h2, h3⟩
  simp [h1, h2, h3] at this

/-- No record blocks a level. See `Blocks`. -/
def openCheck (s : State) (l : Level) : Bool :=
  idsRise s.table.records && s.table.records.all fun e => !(e.2.isWaiting && decide (e.2.level ≤ l))

theorem open_of_check {s : State} {l : Level} (h : openCheck s l = true) : ¬ Blocks s l := by
  simp only [openCheck, Bool.and_eq_true, List.all_eq_true] at h
  rintro ⟨id, r, hr, h1, h2⟩
  have := h.2 _ ((State.rec?_eq_some h.1 id r).1 hr)
  simp [h1, h2] at this

/-- See `PassesChecks`. -/
def passesCheck (s : State) (p : Port) (a : AdmitArgs) (c : ClassId) : Bool :=
  let k := s.policy.classes[c].kind
  k != .unused && freshCheck s p a.ref && !s.isBarred c && (k != .general || decide (0 < s.pacing.classes[c].allowance)) &&
  if k = .general then decide (33 ≤ s.freeRecords) else decide (1 ≤ s.freeRecords)

theorem passesChecks_of_check {s : State} {p : Port} {a : AdmitArgs} {c : ClassId} (h : passesCheck s p a c = true) :
    PassesChecks s p a c := by
  simp only [passesCheck, Bool.and_eq_true, Bool.or_eq_true, bne_iff_ne, ne_eq, Bool.not_eq_true',
    decide_eq_true_eq] at h
  obtain ⟨⟨⟨⟨h1, h2⟩, h3⟩, h4⟩, h5⟩ := h
  refine ⟨h1, fun id r => fresh_of_check h2 id r, h3, fun hk => h4.resolve_left (fun hn => hn hk), ?_⟩
  split at h5
  · rw [if_pos (by assumption)]; simpa using h5
  · rw [if_neg (by assumption)]; simpa using h5

end Sys2Proof.Machine
end

