-- ==== Sys2Proof/Laws/Operations.lean ====
section
/-! SUPPORT. What each shared operation over records does: one lemma for the case in which it acts and one for the
case in which it leaves the state alone. The provers cite these instead of unfolding the operation. -/

namespace Sys2Proof.Machine

/-! Notices (R166). -/

theorem postNotice_free {id : RecId} {s : State} (k : NoticeKind) (h : s.rec? id = none) : postNotice id k s = s := by
  simp [postNotice, h]

theorem postNotice_new {id : RecId} {s : State} {r : CallRecord} (k : NoticeKind) (h : s.rec? id = some r)
    (hn : r.notice = none) :
    postNotice id k s = (s.setRec id { r with notice := some k }).updPort r.owner (·.joinNotices id) := by
  simp [postNotice, h, hn]

theorem postNotice_replace {id : RecId} {s : State} {r : CallRecord} {old : NoticeKind} (k : NoticeKind)
    (h : s.rec? id = some r) (hn : r.notice = some old) (hf : old.final = false) :
    postNotice id k s = s.setRec id { r with notice := some k } := by
  simp [postNotice, h, hn, hf]

theorem postNotice_final {id : RecId} {s : State} {r : CallRecord} {old : NoticeKind} (k : NoticeKind)
    (h : s.rec? id = some r) (hn : r.notice = some old) (hf : old.final = true) : postNotice id k s = s := by
  simp [postNotice, h, hn, hf]

/-- All that a posting can do: nothing, a record with its notice field changed, and the tail of one notice list. -/
theorem postNotice_cases (id : RecId) (k : NoticeKind) (s : State) :
    postNotice id k s = s ∨
    (∃ r, s.rec? id = some r ∧ postNotice id k s = s.setRec id { r with notice := some k }) ∨
    (∃ r, s.rec? id = some r ∧ r.notice = none ∧
      postNotice id k s = (s.setRec id { r with notice := some k }).updPort r.owner (·.joinNotices id)) := by
  cases h : s.rec? id with
  | none => exact .inl (postNotice_free k h)
  | some r =>
    cases hn : r.notice with
    | none => exact .inr (.inr ⟨r, rfl, hn, postNotice_new k h hn⟩)
    | some old =>
      cases hf : old.final with
      | true => exact .inl (postNotice_final k h hn hf)
      | false => exact .inr (.inl ⟨r, rfl, postNotice_replace k h hn hf⟩)

/-! Victim lists (R88) and freeing (R25). -/

theorem leaveVictims_collecting {victim c : RecId} {s : State} {r : CallRecord} {w : WaitFields} {n : Nat}
    {vs : List RecId} (h : s.rec? c = some r) (hs : r.state = .collecting w n vs) :
    leaveVictims victim c s = s.setRec c { r with state := .collecting w n (vs.filter (· != victim)) } := by
  simp [leaveVictims, h, hs]

theorem leaveVictims_other {victim c : RecId} {s : State}
    (h : ∀ r, s.rec? c = some r → r.isCollecting = false) : leaveVictims victim c s = s := by
  unfold leaveVictims
  split
  · rfl
  · next r hr =>
    have hc := h r hr
    split
    · next w n vs hst => simp [CallRecord.isCollecting, hst] at hc
    · rfl

theorem freeRecord_free {id : RecId} {s : State} (h : s.rec? id = none) : freeRecord id s = s := by
  simp [freeRecord, h]

theorem freeRecord_found {id : RecId} {s : State} {r : CallRecord} (h : s.rec? id = some r) :
    freeRecord id s =
      let s1 := leaveLists id r s
      let s2 := setClassCount r.cls (s1.table.classCount[r.cls] - 1) s1
      let s3 := if r.notice.isSome then s2.updPort r.owner (·.leaveNotices id) else s2
      { s3 with table.records := eraseRec s3.table.records id } := by
  simp [freeRecord, h]

/-! Service (R68, R69). -/

theorem grant_waiting {id : RecId} {s : State} {r : CallRecord} {w : WaitFields} (h : s.rec? id = some r)
    (hs : r.state = .waiting w) :
    grant id s = postNotice id .granted (becomeHolding id r { s with pool.free := s.pool.free - w.need }) := by
  simp [grant, h, hs]

theorem grant_other {id : RecId} {s : State} (h : ∀ r, s.rec? id = some r → r.isWaiting = false) :
    grant id s = s := by
  unfold grant
  split
  · rfl
  · next r hr =>
    have hc := h r hr
    split
    · next w hst => simp [CallRecord.isWaiting, hst] at hc
    · rfl

/-- A record that is servable is WAITING and fits (R4, R68). -/
theorem servable_iff {id : RecId} {s : State} :
    servable id s = true ↔
      ∃ r w, s.rec? id = some r ∧ r.state = .waiting w ∧ fits r.kind w.need s.pool = true := by
  unfold servable
  cases h : s.rec? id with
  | none => simp
  | some r => cases hs : r.state <;> simp [hs]

/-- The unit test passes only when the units are free (R4). -/
theorem fits_le {k : Kind} {n : Nat} {p : Pool} (h : fits k n p = true) : n ≤ p.free := by
  cases k <;> simp [fits] at h <;> omega

theorem serveList_stop {id : RecId} {rest : List RecId} {s : State} (h : servable id s = false) :
    serveList (id :: rest) s = s := by
  simp [serveList, h]

theorem serveList_go {id : RecId} {rest : List RecId} {s : State} (h : servable id s = true) :
    serveList (id :: rest) s = serveList rest (grant id s) := by
  simp [serveList, h]

/-- No service runs while nothing is free (R67). -/
theorem service_idle {s : State} (h : s.pool.free = 0) : service s = s := by
  simp [service, h]

/-! Reprieve and completion (R100, R102). -/

theorem reprieve_pending {id : RecId} {s : State} {r : CallRecord} {p : HoldState} {g : Nat} {c : RecId}
    (h : s.rec? id = some r) (hs : r.state = .preemptPending p g c) :
    reprieve id s = postNotice id .reprieved (s.setRec id { r with state := .holding p }) := by
  simp [reprieve, h, hs]

theorem reprieve_other {id : RecId} {s : State}
    (h : ∀ r p g c, s.rec? id = some r → r.state ≠ .preemptPending p g c) : reprieve id s = s := by
  unfold reprieve
  split
  · rfl
  · next r hr =>
    split
    · next p g c hst => exact absurd hst (h r p g c hr)
    · rfl

theorem complete_collecting {id : RecId} {s : State} {r : CallRecord} {w : WaitFields} {n : Nat}
    {vs : List RecId} (h : s.rec? id = some r) (hs : r.state = .collecting w n vs) :
    complete id s =
      reprieveAll vs (postNotice id .granted
        (becomeHolding id r (freeSlot id { s with pool.collected := s.pool.collected - w.need }))) := by
  simp [complete, h, hs]

theorem complete_other {id : RecId} {s : State} (h : ∀ r, s.rec? id = some r → r.isCollecting = false) :
    complete id s = s := by
  unfold complete
  split
  · rfl
  · next r hr =>
    have hc := h r hr
    split
    · next w n vs hst => simp [CallRecord.isCollecting, hst] at hc
    · rfl

/-! The distribution (R6 to R10). -/

theorem giveTo_collecting {id : RecId} {n : Nat} {s : State} {r : CallRecord} {w : WaitFields} {c : Nat}
    {vs : List RecId} (h : s.rec? id = some r) (hs : r.state = .collecting w c vs) :
    giveTo id n s =
      let g := min n (w.need - c)
      let s1 := { s with pool.collected := s.pool.collected + g }.setRec id
        { r with state := .collecting w (c + g) vs }
      (if c + g = w.need then complete id s1 else s1, n - g) := by
  simp [giveTo, h, hs]

theorem giveTo_other {id : RecId} {n : Nat} {s : State} (h : ∀ r, s.rec? id = some r → r.isCollecting = false) :
    giveTo id n s = (s, n) := by
  unfold giveTo
  split
  · rfl
  · next r hr =>
    have hc := h r hr
    split
    · next w k vs hst => simp [CallRecord.isCollecting, hst] at hc
    · rfl

/-- The units that are left never exceed the units that were offered. -/
theorem giveTo_left (id : RecId) (n : Nat) (s : State) : (giveTo id n s).2 ≤ n := by
  unfold giveTo
  split
  · exact Nat.le_refl n
  · split
    · exact Nat.sub_le _ _
    · exact Nat.le_refl n

@[simp] theorem giveList_nil (n : Nat) (s : State) : giveList [] n s = (s, n) := rfl

@[simp] theorem giveList_zero (ids : List RecId) (s : State) : giveList ids 0 s = (s, 0) := by
  cases ids <;> simp [giveList]

theorem giveList_cons (id : RecId) (ids : List RecId) (n : Nat) (s : State) (h : n ≠ 0) :
    giveList (id :: ids) n s = giveList ids (giveTo id n s).2 (giveTo id n s).1 := by
  simp [giveList, h]

theorem retireDebt_none {n : Nat} {s : State} (h : min n s.pool.debt = 0) : retireDebt n s = (s, n) := by
  simp [retireDebt, h]

theorem retireDebt_some {n : Nat} {s : State} (h : min n s.pool.debt ≠ 0) :
    retireDebt n s =
      let c := s.pool.capacity - min n s.pool.debt
      let s1 := { s with pool.capacity := c, pool.feff := floorOf s.activeLimits.floor c }
      (if min n s.pool.debt = s.pool.debt then raiseAll .debtClear s1 else s1, n - min n s.pool.debt) := by
  simp only [retireDebt, h, if_false]

/-! Pre-emption (R95, R96). -/

theorem makeVictim_holding {c id : RecId} {s : State} {r : CallRecord} {h' : HoldState}
    (h : s.rec? id = some r) (hs : r.state = .holding h') :
    makeVictim c id s =
      postNotice id .preempt (s.setRec id { r with state := .preemptPending h' s.activeLimits.grace c }) := by
  simp [makeVictim, h, hs]

theorem makeVictim_other {c id : RecId} {s : State}
    (h : ∀ r h', s.rec? id = some r → r.state ≠ .holding h') : makeVictim c id s = s := by
  unfold makeVictim
  split
  · rfl
  · next r hr =>
    split
    · next h' hst => exact absurd hst (h r h' hr)
    · rfl

/-- Selection fails while every slot is in use (R91). -/
theorem selectVictims_full {s : State} (l : Level) (n : Nat) (h : s.emptySlot? = none) :
    selectVictims s l n = none := by
  simp [selectVictims, h]

/-- The walk of selection: the victims are a prefix of the candidates, at most `room`, and with the sum before them
they cover the need (R93). -/
theorem takeVictims_prefix (cands : List (RecId × Nat)) (sum need room : Nat) (vs : List RecId)
    (h : takeVictims cands sum need room = some vs) :
    ∃ k, k ≤ room ∧ vs = (cands.take k).map (·.1) ∧ need ≤ sum + ((cands.take k).map (·.2)).sum := by
  induction cands generalizing sum room vs with
  | nil =>
    unfold takeVictims at h
    split at h
    · next hn => cases h; exact ⟨0, by omega, by simp, by simpa using hn⟩
    · simp at h
  | cons e rest ih =>
    obtain ⟨id, u⟩ := e
    unfold takeVictims at h
    split at h
    · next hn => cases h; exact ⟨0, by omega, by simp, by simpa using hn⟩
    · cases room with
      | zero => simp at h
      | succ m =>
        simp only [Option.map_eq_some_iff] at h
        obtain ⟨ws, hw, rfl⟩ := h
        obtain ⟨k, hk, rfl, hs⟩ := ih _ _ _ hw
        refine ⟨k + 1, by omega, by simp, ?_⟩
        simp only [List.take_succ_cons, List.map_cons, List.sum_cons]
        omega

/-! Pressure and conditions (R15, R83, R121). -/

theorem setPressure_same (s : State) : setPressure s.pacing.level s = s := by
  simp [setPressure]

theorem setExhausted_same (s : State) : setExhausted s.pool.exhausted s = s := by
  simp [setExhausted]

theorem setStalled_same (s : State) : setStalled s.wait.stalled s = s := by
  simp [setStalled]

theorem setActiveProfile_same (s : State) : setActiveProfile s.time.activeProfile s = s := by
  simp [setActiveProfile]

/-! The engine (R184, R189). -/

/-- A request command that the engine does not take changes nothing. -/
theorem runRequest_idle {p : Port} {tag : Byte} {q : Request} {run : State → Executed} {s : State}
    (h : engineTake p tag q s = none) : runRequest p tag q run s = .next s := by
  simp [runRequest, h]

/-- A request command that it takes is answered. -/
theorem runRequest_taken {p : Port} {tag : Byte} {q : Request} {run : State → Executed} {s s1 : State}
    (h : engineTake p tag q s = some s1) :
    runRequest p tag q run s =
      .next ((run s1).state.updPort p fun ps => ps.answer (run s1).result (run s1).data) := by
  simp [runRequest, h]

/-- A taken request moves the pointer past its port (R189). -/
theorem claim_pointer {p : Port} {tag : Byte} {q : Request} {s s1 : State} (h : claim p tag q s = some s1) :
    s1 = { s with pointer := p + 1 } := by
  unfold claim at h
  split at h
  · simp at h
  · split at h
    · exact (Option.some.inj h).symm
    · simp at h

/-! Port reset sequences (R189, R192). -/

/-- A PORT_CLEAR is being executed exactly where a port has its sequence in progress. -/
theorem clearing_iff {s : State} :
    s.clearing = true ↔ ∃ (q : Port) (answer : Option Response), s.ports[q].resetSeq = some (.byClear answer) := by
  unfold State.clearing
  rw [List.any_eq_true]
  constructor
  · rintro ⟨q, -, h⟩
    split at h
    · exact ⟨q, _, ‹_›⟩
    · simp at h
    · simp at h
  · rintro ⟨q, answer, h⟩
    exact ⟨q, List.mem_finRange q, by rw [h]⟩

/-- A sequence may go on when it is that of a PORT_CLEAR, or that of PRST# while no PORT_CLEAR is being executed. -/
theorem sequenceRuns_iff {p : Port} {s : State} :
    sequenceRuns p s = true ↔ (∃ answer : Option Response, s.ports[p].resetSeq = some (.byClear answer)) ∨
      s.ports[p].resetSeq = some .byPin ∧ s.clearing = false := by
  unfold sequenceRuns
  split <;> rename_i h <;> rw [h] <;> simp

end Sys2Proof.Machine
end

