-- ==== Sys2Proof/Laws/Frames.lean ====
section
/-! SUPPORT. What the operations over records, units and notices leave alone: the policy image, the time, the Pacing
Unit, the arbiter pointer, RESET#, the queue of commands, and at each port its queues, pins and enable set. -/

namespace Sys2Proof.Machine

theorem Untouched.refl (s : State) : Untouched s s :=
  ⟨rfl, rfl, rfl, rfl, rfl, rfl, ⟨fun _ => rfl, fun _ => rfl, fun _ => rfl, fun _ => rfl, fun _ => rfl, fun _ => rfl,
    fun _ => rfl⟩⟩

theorem QueuesKept.trans {s t u : State} (h : QueuesKept s t) (k : QueuesKept t u) : QueuesKept s u where
  inflight p := (k.inflight p).trans (h.inflight p)
  responses p := (k.responses p).trans (h.responses p)
  reject p := (k.reject p).trans (h.reject p)
  prstLow p := (k.prstLow p).trans (h.prstLow p)
  transaction p := (k.transaction p).trans (h.transaction p)
  resetSeq p := (k.resetSeq p).trans (h.resetSeq p)
  enables p := (k.enables p).trans (h.enables p)

theorem Untouched.trans {s t u : State} (h : Untouched s t) (k : Untouched t u) : Untouched s u where
  policy := k.policy.trans h.policy
  time := k.time.trans h.time
  pacing := k.pacing.trans h.pacing
  pointer := k.pointer.trans h.pointer
  resetLow := k.resetLow.trans h.resetLow
  pending := k.pending.trans h.pending
  queues := h.queues.trans k.queues

/-- A change to blocks that the relation does not name. -/
theorem Untouched.of_ports {s t : State} (policy : t.policy = s.policy) (time : t.time = s.time)
    (pacing : t.pacing = s.pacing) (pointer : t.pointer = s.pointer) (resetLow : t.resetLow = s.resetLow)
    (pending : t.pending = s.pending) (ports : t.ports = s.ports) : Untouched s t where
  policy := policy
  time := time
  pacing := pacing
  pointer := pointer
  resetLow := resetLow
  pending := pending
  queues := by constructor <;> intro p <;> rw [ports]

/-- A change at every port that keeps its queues, pins and enable set. -/
theorem Untouched.of_updPorts (s : State) (f : Port → PortState → PortState)
    (h : ∀ p ps, (f p ps).inflight = ps.inflight ∧ (f p ps).responses = ps.responses ∧
      (f p ps).reject = ps.reject ∧ (f p ps).prstLow = ps.prstLow ∧ (f p ps).transaction = ps.transaction ∧
      (f p ps).resetSeq = ps.resetSeq ∧ (f p ps).enables = ps.enables) : Untouched s (s.updPorts f) where
  policy := rfl
  time := rfl
  pacing := rfl
  pointer := rfl
  resetLow := rfl
  pending := rfl
  queues := by
    constructor <;> intro p <;> rw [State.updPorts_at]
    · exact (h p _).1
    · exact (h p _).2.1
    · exact (h p _).2.2.1
    · exact (h p _).2.2.2.1
    · exact (h p _).2.2.2.2.1
    · exact (h p _).2.2.2.2.2.1
    · exact (h p _).2.2.2.2.2.2

/-- A change at one port that keeps its queues, pins and enable set. -/
theorem Untouched.of_updPort (s : State) (p : Port) (f : PortState → PortState)
    (h : ∀ ps, (f ps).inflight = ps.inflight ∧ (f ps).responses = ps.responses ∧
      (f ps).reject = ps.reject ∧ (f ps).prstLow = ps.prstLow ∧ (f ps).transaction = ps.transaction ∧
      (f ps).resetSeq = ps.resetSeq ∧ (f ps).enables = ps.enables) : Untouched s (s.updPort p f) := by
  have key : ∀ q : Port, (s.updPort p f).ports[q] = if q = p then f s.ports[q] else s.ports[q] := by
    intro q
    by_cases hq : q = p
    · subst hq; rw [if_pos rfl]; exact State.updPort_self s q f
    · simp only [hq, if_false]; exact State.updPort_other s p q f hq
  refine ⟨rfl, rfl, rfl, rfl, rfl, rfl, ⟨?_, ?_, ?_, ?_, ?_, ?_, ?_⟩⟩ <;> intro q <;> rw [key q] <;> split
  · exact (h _).1
  · rfl
  · exact (h _).2.1
  · rfl
  · exact (h _).2.2.1
  · rfl
  · exact (h _).2.2.2.1
  · rfl
  · exact (h _).2.2.2.2.1
  · rfl
  · exact (h _).2.2.2.2.2.1
  · rfl
  · exact (h _).2.2.2.2.2.2
  · rfl

theorem Untouched.setRec (s : State) (id : RecId) (r : CallRecord) : Untouched s (s.setRec id r) :=
  .of_ports rfl rfl rfl rfl rfl rfl rfl

theorem Untouched.joinWait (s : State) (id : RecId) (l : Level) : Untouched s (joinWait id l s) :=
  .of_ports rfl rfl rfl rfl rfl rfl rfl

theorem Untouched.leaveWait (s : State) (id : RecId) (l : Level) : Untouched s (leaveWait id l s) :=
  .of_ports rfl rfl rfl rfl rfl rfl rfl

theorem Untouched.joinHoldings (s : State) (id : RecId) : Untouched s (joinHoldings id s) :=
  .of_ports rfl rfl rfl rfl rfl rfl rfl

theorem Untouched.leaveHoldings (s : State) (id : RecId) : Untouched s (leaveHoldings id s) :=
  .of_ports rfl rfl rfl rfl rfl rfl rfl

theorem Untouched.freeSlot (s : State) (id : RecId) : Untouched s (freeSlot id s) :=
  .of_ports rfl rfl rfl rfl rfl rfl rfl

theorem Untouched.setClassCount (s : State) (c : ClassId) (n : Nat) : Untouched s (setClassCount c n s) :=
  .of_ports rfl rfl rfl rfl rfl rfl rfl

theorem Untouched.pool (s : State) (p : Pool) : Untouched s { s with pool := p } :=
  .of_ports rfl rfl rfl rfl rfl rfl rfl

theorem Untouched.takeSlot (s : State) (id : RecId) : Untouched s (takeSlot id s) := by
  unfold Machine.takeSlot
  split
  · exact .refl s
  · exact .of_ports rfl rfl rfl rfl rfl rfl rfl

theorem Untouched.raiseAll (s : State) (e : Event) : Untouched s (raiseAll e s) := by
  refine .of_updPorts s _ fun p ps => ?_
  unfold PortState.latch
  split <;> simp

theorem Untouched.setExhausted (s : State) (b : Bool) : Untouched s (setExhausted b s) := by
  unfold Machine.setExhausted
  split
  · exact .refl s
  · refine (Untouched.pool s { s.pool with exhausted := b }).trans ?_
    dsimp only
    split
    · refine .of_updPorts _ _ fun p ps => ?_
      unfold PortState.exhaustedEnters
      split
      · simp
      · split <;> simp
    · exact .of_updPorts _ _ fun p ps => by simp

theorem Untouched.setStalled (s : State) (b : Bool) : Untouched s (setStalled b s) := by
  unfold Machine.setStalled
  split
  · exact .refl s
  · refine Untouched.trans (t := { s with wait.stalled := b }) (.of_ports rfl rfl rfl rfl rfl rfl rfl) ?_
    dsimp only
    split
    · refine .of_updPorts _ _ fun p ps => ?_
      unfold PortState.stalledEnters
      split
      · simp
      · split <;> simp
    · exact .of_updPorts _ _ fun p ps => by simp

theorem Untouched.evalExhausted (s : State) : Untouched s (evalExhausted s) := .setExhausted s _

theorem Untouched.postNotice (s : State) (id : RecId) (k : NoticeKind) : Untouched s (postNotice id k s) := by
  rcases postNotice_cases id k s with h | ⟨r, _, h⟩ | ⟨r, _, _, h⟩ <;> rw [h]
  · exact .refl s
  · exact .setRec s id _
  · exact (Untouched.setRec s id _).trans (.of_updPort _ _ _ fun ps => by simp [PortState.joinNotices])

theorem Untouched.leaveVictims (s : State) (v c : RecId) : Untouched s (leaveVictims v c s) := by
  unfold Machine.leaveVictims
  split
  · exact .refl s
  · split
    · exact .setRec s _ _
    · exact .refl s

theorem Untouched.leaveLists (s : State) (id : RecId) (r : CallRecord) : Untouched s (leaveLists id r s) := by
  unfold Machine.leaveLists
  split
  · exact .leaveWait s id _
  · exact (Untouched.leaveWait s id _).trans (.freeSlot _ id)
  · exact .leaveHoldings s id
  · exact (Untouched.leaveHoldings s id).trans (.leaveVictims _ id _)
  · exact .refl s
  · exact .refl s

theorem Untouched.freeRecord (s : State) (id : RecId) : Untouched s (freeRecord id s) := by
  unfold Machine.freeRecord
  split
  · exact .refl s
  · next r hr =>
    have h2 := (Untouched.leaveLists s id r).trans
      (.setClassCount _ r.cls ((Machine.leaveLists id r s).table.classCount[r.cls] - 1))
    dsimp only
    split
    · exact (h2.trans (.of_updPort _ r.owner (·.leaveNotices id) fun ps => by simp [PortState.leaveNotices])).trans
        (.of_ports rfl rfl rfl rfl rfl rfl rfl)
    · exact h2.trans (.of_ports rfl rfl rfl rfl rfl rfl rfl)

theorem Untouched.becomeHolding (s : State) (id : RecId) (r : CallRecord) : Untouched s (becomeHolding id r s) :=
  ((Untouched.leaveWait s id r.level).trans (.setRec _ id _)).trans (.joinHoldings _ id)

theorem Untouched.grant (s : State) (id : RecId) : Untouched s (grant id s) := by
  unfold Machine.grant
  split
  · exact .refl s
  · next r hr =>
    split
    · exact ((Untouched.pool s _).trans (.becomeHolding _ id r)).trans (.postNotice _ id _)
    · exact .refl s

theorem Untouched.serveList (ids : List RecId) (s : State) : Untouched s (serveList ids s) := by
  induction ids generalizing s with
  | nil => exact .refl s
  | cons id rest ih =>
    unfold Machine.serveList
    split
    · exact (Untouched.grant s id).trans (ih _)
    · exact .refl s

theorem Untouched.service (s : State) : Untouched s (service s) := by
  unfold Machine.service
  split
  · exact .serveList _ s
  · exact .refl s

theorem Untouched.refloor (s : State) : Untouched s (refloor s) := by
  unfold Machine.refloor
  dsimp only
  split
  · exact (Untouched.pool s _).trans (.service _)
  · exact .pool s _

theorem Untouched.reprieve (s : State) (id : RecId) : Untouched s (reprieve id s) := by
  unfold Machine.reprieve
  split
  · exact .refl s
  · split
    · exact (Untouched.setRec s id _).trans (.postNotice _ id _)
    · exact .refl s

theorem Untouched.reprieveAll (ids : List RecId) (s : State) : Untouched s (reprieveAll ids s) := by
  induction ids generalizing s with
  | nil => exact .refl s
  | cons id rest ih => exact (Untouched.reprieve s id).trans (ih _)

theorem Untouched.complete (s : State) (id : RecId) : Untouched s (complete id s) := by
  unfold Machine.complete
  split
  · exact .refl s
  · next r hr =>
    split
    · exact ((((Untouched.pool s _).trans (.freeSlot _ id)).trans (.becomeHolding _ id r)).trans
        (.postNotice _ id _)).trans (.reprieveAll _ _)
    · exact .refl s

theorem Untouched.giveTo (s : State) (id : RecId) (n : Nat) : Untouched s (giveTo id n s).1 := by
  unfold Machine.giveTo
  split
  · exact .refl s
  · next r hr =>
    split
    · dsimp only
      split
      · exact ((Untouched.pool s _).trans (.setRec _ id _)).trans (.complete _ id)
      · exact (Untouched.pool s _).trans (.setRec _ id _)
    · exact .refl s

theorem Untouched.giveList (ids : List RecId) (n : Nat) (s : State) : Untouched s (giveList ids n s).1 := by
  induction ids generalizing s n with
  | nil => exact .refl s
  | cons id rest ih =>
    unfold Machine.giveList
    split
    · exact .refl s
    · exact (Untouched.giveTo s id n).trans (ih _ _)

theorem Untouched.giveFirst (s : State) (c : Option RecId) (n : Nat) : Untouched s (giveFirst c n s).1 := by
  unfold Machine.giveFirst
  split
  · exact .refl s
  · exact .giveTo s _ n

theorem Untouched.retireDebt (s : State) (n : Nat) : Untouched s (retireDebt n s).1 := by
  unfold Machine.retireDebt
  dsimp only
  split
  · exact .refl s
  · dsimp only
    split
    · exact (Untouched.pool s _).trans (.raiseAll _ _)
    · exact .pool s _

/-- A whole distribution, with its service and its evaluation of EXHAUSTED. -/
theorem Untouched.distribute (s : State) (c : Option RecId) (n : Nat) : Untouched s (distribute c n s) := by
  unfold Machine.distribute
  dsimp only
  exact (((((Untouched.giveFirst s c n).trans (.giveList _ _ _)).trans (.retireDebt _ _)).trans
    (.pool _ _)).trans (.service _)).trans (.evalExhausted _)

theorem Untouched.endCollecting (s : State) (id : RecId) (r : CallRecord) (n : Nat) (vs : List RecId) :
    Untouched s (endCollecting id r n vs s) := by
  unfold Machine.endCollecting
  exact ((((Untouched.pool s _).trans (.leaveWait _ id _)).trans (.freeSlot _ id)).trans
    (.setRec _ id _)).trans (.reprieveAll _ _)

theorem Untouched.releaseRecord (s : State) (id : RecId) (r : CallRecord) : Untouched s (releaseRecord id r s) := by
  unfold Machine.releaseRecord
  split
  · exact (Untouched.freeRecord s id).trans (.distribute _ _ _)
  · exact (Untouched.freeRecord s id).trans (.distribute _ _ _)
  · exact .refl s

theorem Untouched.withdrawRecord (s : State) (id : RecId) (r : CallRecord) :
    Untouched s (withdrawRecord id r s) := by
  unfold Machine.withdrawRecord
  split
  · exact .freeRecord s id
  · exact ((Untouched.endCollecting s id r _ _).trans (.freeRecord _ id)).trans (.distribute _ _ _)
  · exact .refl s

theorem Untouched.endSetup (s : State) (id : RecId) (r : CallRecord) : Untouched s (endSetup id r s) := by
  unfold Machine.endSetup
  split
  · exact (Untouched.setRec s id _).trans (.distribute _ _ _)
  · exact (Untouched.setRec s id _).trans (.distribute _ _ _)
  · exact .refl s

theorem Untouched.makeVictim (s : State) (c id : RecId) : Untouched s (makeVictim c id s) := by
  unfold Machine.makeVictim
  split
  · exact .refl s
  · split
    · exact (Untouched.setRec s id _).trans (.postNotice _ id _)
    · exact .refl s

theorem Untouched.makeVictims (c : RecId) (ids : List RecId) (s : State) : Untouched s (makeVictims c ids s) := by
  induction ids generalizing s with
  | nil => exact .refl s
  | cons id rest ih => exact (Untouched.makeVictim s c id).trans (ih _)

theorem Untouched.makeCollector (s : State) (id : RecId) (r : CallRecord) (w : WaitFields) (vs : List RecId) :
    Untouched s (makeCollector id r w vs s) := by
  unfold Machine.makeCollector
  dsimp only
  exact ((((Untouched.setRec s id _).trans (.takeSlot _ id)).trans (.pool _ _)).trans
    (.makeVictims id vs _)).trans (.evalExhausted _)

theorem Untouched.reclaim (s : State) (id : RecId) (r : CallRecord) (c : RecId) :
    Untouched s (reclaim id r c s) := by
  unfold Machine.reclaim
  dsimp only
  exact ((((Untouched.leaveVictims s id c).trans (.setRec _ id _)).trans (.leaveHoldings _ id)).trans
    (.postNotice _ id _)).trans (.distribute _ _ _)

theorem Untouched.expireWait (s : State) (id : RecId) (r : CallRecord) : Untouched s (expireWait id r s) := by
  unfold Machine.expireWait
  split
  · exact ((Untouched.leaveWait s id _).trans (.setRec _ id _)).trans (.postNotice _ id _)
  · exact ((Untouched.endCollecting s id r _ _).trans (.postNotice _ id _)).trans (.distribute _ _ _)
  · exact .refl s

theorem Untouched.retryList (ids : List RecId) (s : State) : Untouched s (retryList ids s) := by
  induction ids generalizing s with
  | nil => exact .refl s
  | cons id rest ih =>
    unfold Machine.retryList
    split
    · exact ih s
    · split
      · split
        · split
          · exact .refl s
          · split
            · exact .refl s
            · exact (Untouched.makeCollector s id _ _ _).trans (ih _)
        · exact ih s
      · exact ih s

/-- The whole boundary work of the Wait List. -/
theorem Untouched.boundaryWork (s : State) : Untouched s (boundaryWork s) := by
  unfold Machine.boundaryWork Machine.evalStalled Machine.boundaryService
  dsimp only
  refine Untouched.trans ?_ (.setStalled _ _)
  refine Untouched.trans ?_ (.retryList _ _)
  refine Untouched.trans (t := { s with wait.boundaryDue := false }) (.of_ports rfl rfl rfl rfl rfl rfl rfl) ?_
  split
  · exact (Untouched.service _).trans (.evalExhausted _)
  · exact .refl _

end Sys2Proof.Machine
end

