-- ==== Sys2Proof/Tests/Slice0.lean ====
section
/-! SUPPORT. Tests: the smoke tests of WellFormed, frames written out from the request table of R186, worked examples of
the spec, and for each statement of Obligations.lean a state and operands that meet its hypotheses. -/

namespace Sys2Proof.Tests

open Sys2Proof.Machine

/-! Well-formedness: each check refuses a term. -/

theorem test_wf_unknown_code : Instr.wf (.unknownRequestCode 0 0 0x20) = true := by decide
theorem test_wf_known_code : Instr.wf (.unknownRequestCode 0 0 0x3F) = false := by decide
theorem test_wf_null_code : Instr.wf (.unknownRequestCode 0 0 0x00) = false := by decide
theorem test_wf_setup_id : Instr.wf (.setupTimerExpiry 1024) = false := by decide
theorem test_wf_grace_id : Instr.wf (.graceExpiry 1024) = false := by decide
theorem test_wf_deadline_id : Instr.wf (.deadlineExpiry 1024) = false := by decide
theorem test_wf_last_id : Instr.wf (.deadlineExpiry 1023) = true := by decide

/-- The table gives no row any bits. -/
theorem test_no_table_word : decodeTableWord 96 0x01 = none := by decide
theorem test_no_fetch_word : State.reset.withFetchWord 96 0x01 = State.reset := by rfl

/-! Frames written out byte by byte from the request table of R186. -/

/-- ADMIT: reference in bytes 2 and 3, class in byte 4, nowait in bit 0 of byte 5. -/
theorem test_frame_admit :
    decodeRequest ⟨0x01, 0x7A, 0x12, 0x34, 0x0F, 0x01, 0, 0, 0, 0, 0, 0⟩ = .admitCall ⟨0x1234, 15, true⟩ := by decide

/-- RELEASE: record id, then reference. -/
theorem test_frame_release :
    decodeRequest ⟨0x02, 0, 0x03, 0xFF, 0x00, 0x05, 0, 0, 0, 0, 0, 0⟩ = .release ⟨1023, 5⟩ := by decide

/-- WRITE_CLASS: preempt, vulnerable and continuous in bits 0, 1 and 2 of byte 7. -/
theorem test_frame_write_class :
    decodeRequest ⟨0x21, 0, 0, 9, 3, 2, 1, 0b101, 8, 4, 20, 0⟩ =
      .writeClass ⟨9, 3, 2, 1, true, false, true, 8, 4, 20⟩ := by decide

/-- WRITE_RATES: w and m in byte 6, R in the low ten bits of bytes 7 and 8, may-wait in bit 7 of byte 9. -/
theorem test_frame_write_rates :
    decodeRequest ⟨0x22, 0, 0, 1, 2, 3, 0x41, 0x02, 0x10, 0x82, 250, 0⟩ =
      .writeRates ⟨1, 2, 3, 4, 1, 528, 2, true, 250⟩ := by decide

/-- WRITE_WINDOW: enabled, daily and lock in bits 7, 6 and 5 of byte 4, profile and minimum in byte 11. -/
theorem test_frame_write_window :
    decodeRequest ⟨0x27, 0, 0, 2, 0xA1, 0x29, 0xB9, 0x27, 0x00, 0x00, 0x1E, 0x22⟩ =
      .writeWindow ⟨2, 1, true, false, true, 700000000, 30, 2, 2⟩ := by decide

/-- SET_TIME: seconds in bytes 2 to 5, ticks in byte 6. -/
theorem test_frame_set_time :
    decodeRequest ⟨0x30, 0, 0x29, 0xB9, 0x23, 0x19, 40, 0, 0, 0, 0, 0⟩ = .setTime ⟨699999001, 40⟩ := by decide

/-- PORT_CLEAR, and a code that is not in the table. -/
theorem test_frame_port_clear :
    decodeRequest ⟨0x3E, 9, 0, 0, 0, 0, 0, 0, 0, 0, 0, 0⟩ = .portClear := by decide
theorem test_frame_unknown :
    decodeRequest ⟨0x20, 9, 0, 0, 0, 0, 0, 0, 0, 0, 0, 0⟩ = .unknown 0x20 := by decide

/-! States for the tests. -/

/-- A holding of port 0 in SUSTAIN, of the default class 2, with reference 5. -/
def call : CallRecord :=
  { owner := 0, ref := 5, cls := 2, kind := .general, level := 4, vulnerable := true, continuous := false,
    u := 2, v := 1, hold := 10, state := .holding .sustain, notice := none }

/-- A waiting record of port 0 of the default class 0, with reference 6. -/
def emergency : CallRecord :=
  { owner := 0, ref := 6, cls := 0, kind := .emergency, level := 0, vulnerable := false, continuous := true,
    u := 4, v := 2, hold := 20, state := .waiting ⟨250, 4, 2500, 0⟩, notice := none }

/-- The state after reset with a capacity, a target and these records, which stand in the lists in the order given. -/
def place (c t : Nat) (rs : List (RecId × CallRecord)) : State :=
  let ids := fun (f : CallRecord → Bool) => (rs.filter fun e => f e.2).map (·.1)
  let taken := sumOver CallRecord.unitsHeld rs + sumOver CallRecord.unitsCollected rs
  { State.reset with
    pool := { capacity := c, target := t, free := c - taken, collected := sumOver CallRecord.unitsCollected rs
              feff := floorOf 64 c, exhausted := false }
    table := { records := rs, holdings := ids (·.isHolding)
               classCount := Vector.ofFn fun k => (rs.filter fun e => e.2.cls = k).length }
    wait := { State.reset.wait with
      levels := Vector.ofFn fun l => ids fun r => r.inWait && r.level == l
      arrival := ids (·.inWait), count := (ids (·.inWait)).length }
    slots := Vector.ofFn fun i => (ids (·.isCollecting))[i.val]?
    ports := Vector.ofFn fun p =>
      let own := ids fun r => r.owner == p && r.notice.isSome
      { PortState.reset with notices := own, events := if own.isEmpty then 0 else Event.notice.bit } }

/-- The whole capacity of 64 is held by one vulnerable call of 64 units. -/
def busy : State := place 64 64 [(0, { call with u := 64, v := 64 })]

/-- The same with a call that is not vulnerable. -/
def firm : State := place 64 64 [(0, { call with u := 64, v := 64, vulnerable := false })]

/-- Collector 1 has `k` of its 4 units, and its victim 0 holds the others of 64. -/
def gathering (k : Nat) : State := place 64 64
  [(0, { call with u := 64 - k, v := 64 - k, state := .preemptPending .sustain 50 1, notice := some .preempt }),
   (1, { emergency with state := .collecting ⟨250, 4, 2500, 0⟩ k [0] })]

/-- The engine takes a request, and the state it takes it in meets a check. -/
def takes (s : State) (p : Port) (q : Request) (check : State → Bool) : Bool := (engineTake p 7 q s).any check

theorem takes_elim {s : State} {p : Port} {q : Request} {check : State → Bool} (h : takes s p q check = true) :
    ∃ s1, engineTake p 7 q s = some s1 ∧ check s1 = true :=
  (Option.any_eq_true _ _).1 h

/-! Worked examples. -/

/-- Section 1.5: the third return of 4 units completes collectors 95 and 40 in that order, one unit is free, and the
victims 311 and 300 are reprieved. -/
def example15 : State :=
  let s := place 400 400
    [(40, { emergency with continuous := false, state := .collecting ⟨250, 4, 2500, 0⟩ 2 [300] }),
     (95, { call with u := 6, cls := 1, kind := .priority, level := 1, vulnerable := false, ref := 7
                      state := .collecting ⟨250, 6, 2500, 0⟩ 5 [311] }),
     (300, { call with ref := 8, state := .preemptPending (.setup 9) 50 40, notice := some .preempt }),
     (311, { call with ref := 9, state := .preemptPending .sustain 50 95, notice := some .preempt })]
  { s with wait.arrival := [95, 40], pool.free := 0 }

theorem test_section_1_5_pool :
    (distribute none 4 example15).pool = { example15.pool with free := 1, collected := 0, exhausted := true } := by decide

theorem test_section_1_5_records :
    (distribute none 4 example15).table.records.map (fun e => (e.1, e.2.state, e.2.notice)) =
      [(40, .holding (.setup 2000), some .granted), (95, .holding (.setup 1000), some .granted),
       (300, .holding (.setup 9), some .reprieved), (311, .holding .sustain, some .reprieved)] := by decide

/-- Section 11.3, boundary B1: C 512, free 120, level 2, and 300 and 90 attempts of classes 2 and 3, which have R 16, m 1,
and weights 4 and 2. -/
def exampleB1 : State :=
  let rate : RateEntry := ⟨4, 16, 1, .paced, false, 20⟩
  let s := { State.reset with
    pool := ⟨512, 512, 120, 0, 64, false⟩
    pacing.level := 2, pacing.boundaryDue := true
    policy.rates := State.reset.policy.rates.set 0
      ((State.reset.policy.rates[(0 : ProfileId)].set 2 rate).set 3 { rate with weight := 2 }) }
  (s.updPacing 2 fun k => { k with attempts := 300 }).updPacing 3 fun k => { k with attempts := 90 }

theorem test_section_11_3_boundary :
    (match exec .intervalBoundary exampleB1 with
      | .next t => some (t.pacing.level, t.pacing.classes[(2 : ClassId)].allowance,
          t.pacing.classes[(3 : ClassId)].allowance, t.pacing.classes[(2 : ClassId)].closed)
      | _ => none) = some (2, 4, 2, 300) := by decide

/-! The queue, the engine and its arbiter: states that meet the hypotheses. -/

/-- Port 0 has a RELEASE waiting, and port 1 an ADMIT of the EMERGENCY class 0. -/
def contest : State :=
  (State.reset.updPort 0 fun ps => { ps with inflight := [⟨encodeRequest 3 (.release ⟨0, 5⟩), false⟩] }).updPort 1
    fun ps => { ps with inflight := [⟨encodeRequest 4 (.admitCall ⟨6, 0, false⟩), false⟩] }

theorem test_arbiter_takes_urgent :
    arbiterChoice contest = some (1, encodeRequest 4 (.admitCall ⟨6, 0, false⟩)) := by decide

theorem test_arbiter_witness : contest.resetLow = false ∧ (∀ q : Port, contest.ports[q].resetSeq = none) ∧
    contest.candidate? 0 = some (encodeRequest 3 (.release ⟨0, 5⟩)) ∧
    contest.isUrgent (encodeRequest 3 (.release ⟨0, 5⟩)) = false ∧
    contest.isUrgent (encodeRequest 4 (.admitCall ⟨6, 0, false⟩)) = true := by decide

theorem test_engine_takes_the_choice : (engineTake 1 4 (.admitCall ⟨6, 0, false⟩) contest).isSome = true := by decide
theorem test_engine_leaves_the_other : exec (.release 0 3 ⟨0, 5⟩) contest = .next contest := by rfl

/-- A port with 3 requests in flight, all executed, hands in a fourth; it is at the limit. -/
def nearlyFull : State := State.reset.updPort 2 fun ps =>
  { ps with
    inflight := List.replicate 3 ⟨encodeRequest 3 .readPool, true⟩
    responses := List.replicate 3 ⟨3, .done, noData⟩ }

theorem test_engine_idle_witness : Request.wf .readPool = true ∧ nearlyFull.resetLow = false ∧
    (∀ r : Port, nearlyFull.ports[r].resetSeq = none) ∧ (∀ r : Port, nearlyFull.candidate? r = none) ∧
    nearlyFull.ports[(2 : Port)].prstLow = false ∧ nearlyFull.ports[(2 : Port)].transaction = none ∧
    nearlyFull.ports[(2 : Port)].inflight.length < Config.inFlightLimit := by decide

theorem test_round_trip_witness : Request.wf (.unknown 0xFF) = true ∧ Request.wf (.admitCall ⟨0xFFFF, 0xFF, true⟩) = true := by
  decide

theorem test_bad_request_witness :
    takes State.reset 0 (.admitCall ⟨1, 16, false⟩) (fun _ => true) = true ∧
    Request.firstBadByte? (.admitCall ⟨1, 16, false⟩) = some 4 ∧
    takes State.reset 0 (.unknown 0x20) (fun _ => true) = true ∧ Request.firstBadByte? (.unknown 0x20) = some 0 ∧
    takes State.reset 0 (.readPolicy ⟨6, 0, 0⟩) (fun _ => true) = true ∧
    Request.firstBadByte? (.readPolicy ⟨6, 0, 0⟩) = some 2 := by decide

/-! Admission. -/

/-- ADMIT of class 2 with reference 5. -/
def ask : AdmitArgs := ⟨5, 2, false⟩

theorem test_classOf : classOf? ask.cls = some 2 ∧ classOf? 0 = some 0 ∧ classOf? 15 = some 15 ∧ classOf? 16 = none := by
  decide

/-- Class 2 is UNUSED. -/
def unusedClass : State :=
  { State.reset with policy.classes := State.reset.policy.classes.set 2 { defaultClass 2 with kind := .unused } }

theorem test_admit_unused_witness : ∃ s1, engineTake 0 7 (.admitCall ask) unusedClass = some s1 ∧ TableBooks s1 ∧
    s1.policy.classes[(2 : ClassId)].kind = .unused := by
  obtain ⟨s1, h, hc⟩ := takes_elim (s := unusedClass) (p := 0) (q := .admitCall ask)
    (check := fun s => tableCheck s && s.policy.classes[(2 : ClassId)].kind == .unused) (by decide)
  simp only [Bool.and_eq_true, beq_iff_eq] at hc
  exact ⟨s1, h, tableBooks_of_check hc.1, hc.2⟩

theorem test_admit_duplicate_witness : ∃ s1 r, engineTake 0 7 (.admitCall ask) (place 64 64 [(1023, call)]) = some s1 ∧
    TableBooks s1 ∧ s1.policy.classes[(2 : ClassId)].kind ≠ .unused ∧ s1.rec? 1023 = some r ∧ r.isLive = true ∧
    r.owner = 0 ∧ r.ref = ask.ref := by
  obtain ⟨s1, h, hc⟩ := takes_elim (s := place 64 64 [(1023, call)]) (p := 0) (q := .admitCall ask)
    (check := fun s => tableCheck s && (s.policy.classes[(2 : ClassId)].kind != .unused && s.rec? 1023 == some call))
    (by decide)
  simp only [Bool.and_eq_true, bne_iff_ne, beq_iff_eq] at hc
  exact ⟨s1, call, h, tableBooks_of_check hc.1, hc.2.1, hc.2.2, rfl, rfl, rfl⟩

/-- Class 2 is barred, and in `spent` its allowance is 0. -/
def barred : State := { State.reset with policy.bars := 0b100 }

/-- See `barred`. -/
def spent : State := State.reset.updPacing 2 fun k => { k with allowance := 0 }

theorem test_admit_barred_witness : ∃ s1, engineTake 0 7 (.admitCall ask) barred = some s1 ∧ TableBooks s1 ∧
    (∀ id r, s1.rec? id = some r → ¬ (r.isLive = true ∧ r.owner = 0 ∧ r.ref = ask.ref)) ∧
    s1.policy.classes[(2 : ClassId)].kind = .general ∧ s1.isBarred 2 = true := by
  obtain ⟨s1, h, hc⟩ := takes_elim (s := barred) (p := 0) (q := .admitCall ask)
    (check := fun s => tableCheck s && freshCheck s 0 ask.ref &&
      (s.policy.classes[(2 : ClassId)].kind == .general && s.isBarred 2)) (by decide)
  simp only [Bool.and_eq_true, beq_iff_eq] at hc
  exact ⟨s1, h, tableBooks_of_check hc.1.1, fun id r => fresh_of_check hc.1.2 id r, hc.2.1, hc.2.2⟩

theorem test_admit_paced_witness : ∃ s1, engineTake 0 7 (.admitCall ask) spent = some s1 ∧ TableBooks s1 ∧
    (∀ id r, s1.rec? id = some r → ¬ (r.isLive = true ∧ r.owner = 0 ∧ r.ref = ask.ref)) ∧
    s1.policy.classes[(2 : ClassId)].kind = .general ∧ s1.isBarred 2 = false ∧
    s1.pacing.classes[(2 : ClassId)].allowance = 0 := by
  obtain ⟨s1, h, hc⟩ := takes_elim (s := spent) (p := 0) (q := .admitCall ask)
    (check := fun s => tableCheck s && freshCheck s 0 ask.ref && (s.policy.classes[(2 : ClassId)].kind == .general &&
      (!s.isBarred 2 && s.pacing.classes[(2 : ClassId)].allowance == 0))) (by decide)
  simp only [Bool.and_eq_true, beq_iff_eq, Bool.not_eq_true'] at hc
  exact ⟨s1, h, tableBooks_of_check hc.1.1, fun id r => fresh_of_check hc.1.2 id r, hc.2.1, hc.2.2.1, hc.2.2.2⟩

/-- `n` RECLAIMED records of class 2 fill the ids from 0 on. -/
def crowd (n : Nat) : State :=
  { State.reset with table := {
      records := (List.range' 0 n).map fun i => (i, { call with state := .reclaimed })
      holdings := []
      classCount := Vector.ofFn fun c => if c = 2 then n else 0 } }

theorem crowd_rises (r : CallRecord) (a n : Nat) : idsRise ((List.range' a n).map fun i => (i, r)) = true := by
  induction n generalizing a with
  | zero => rfl
  | succ n ih =>
    cases n with
    | zero => rfl
    | succ m =>
      have := ih (a + 1)
      simp only [List.range'_succ, List.map_cons, idsRise] at this ⊢
      simp [this]

theorem crowd_books {n : Nat} (hn : n ≤ 1024) {s : State} (h : s.table = (crowd n).table) : TableBooks s := by
  have hr : s.table.records = (List.range' 0 n).map fun i => (i, { call with state := .reclaimed }) := by rw [h]; rfl
  have rises : idsRise s.table.records = true := by rw [hr]; exact crowd_rises _ _ _
  have dead : ∀ id r, s.rec? id = some r → r.isLive = false := by
    intro id r hx
    have := (State.rec?_eq_some rises id r).1 hx
    rw [hr, List.mem_map] at this
    obtain ⟨_, _, he⟩ := this
    rw [← (Prod.mk.inj he).2]; rfl
  refine ⟨rises, ?_, ?_, fun i j r x hi _ hl _ _ _ => absurd (dead i r hi) (by simp [hl])⟩
  · intro e he
    rw [hr, List.mem_map] at he
    obtain ⟨i, hi, rfl⟩ := he
    exact Nat.lt_of_lt_of_le (by simpa using (List.mem_range'_1.1 hi).2) hn
  · intro c
    have hc : s.table.classCount = (crowd n).table.classCount := by rw [h]
    rw [hr, hc]
    by_cases h2 : c = 2
    · subst h2; rw [List.filter_eq_self.2 (by simp [call])]; simp [crowd]
    · have : (2 : ClassId) ≠ c := fun h => h2 h.symm
      rw [List.filter_eq_nil_iff.2 (by simp [call, this])]; simp [crowd, h2]

theorem crowd_taken (n : Nat) {c : Byte} (hc : c = 0 ∨ c = 2) :
    ∃ s1, engineTake 0 7 (.admitCall ⟨5, c, false⟩) (crowd n) = some s1 ∧ s1.table = (crowd n).table ∧
      s1.policy = Policy.reset ∧ s1.pacing = Pacing.reset ∧ s1.time = TimeBase.reset := by
  rcases hc with rfl | rfl
  · refine ⟨_, rfl, ?_, ?_, ?_, ?_⟩ <;> rfl
  · refine ⟨_, rfl, ?_, ?_, ?_, ?_⟩ <;> rfl

theorem crowd_free {n : Nat} {s : State} (h : s.table = (crowd n).table) : s.freeRecords = 1024 - n := by
  simp [State.freeRecords, h, crowd, Config.records]

theorem crowd_fresh {n : Nat} {s : State} (h : s.table = (crowd n).table) (id : RecId) (r : CallRecord)
    (hr : s.rec? id = some r) : ¬ (r.isLive = true ∧ r.owner = 0 ∧ r.ref = 5) := by
  have hm : s.table.records = (List.range' 0 n).map fun i => (i, { call with state := .reclaimed }) := by rw [h]; rfl
  have := (State.rec?_eq_some (by rw [hm]; exact crowd_rises _ _ _) id r).1 hr
  rw [hm, List.mem_map] at this
  obtain ⟨_, _, he⟩ := this
  rw [← (Prod.mk.inj he).2]
  rintro ⟨hl, _⟩
  exact absurd hl (by decide)

/-- A GENERAL arrival finds 32 FREE records, and an EMERGENCY one none. -/
theorem test_admit_table_full_witness : ∃ s1, engineTake 0 7 (.admitCall ask) (crowd 992) = some s1 ∧ TableBooks s1 ∧
    (∀ id r, s1.rec? id = some r → ¬ (r.isLive = true ∧ r.owner = 0 ∧ r.ref = ask.ref)) ∧
    s1.policy.classes[(2 : ClassId)].kind = .general ∧ s1.isBarred 2 = false ∧
    0 < s1.pacing.classes[(2 : ClassId)].allowance ∧ s1.freeRecords = 32 := by
  obtain ⟨s1, h, ht, hp, hk, hz⟩ := crowd_taken 992 (c := 2) (by decide)
  refine ⟨s1, h, crowd_books (by omega) ht, crowd_fresh ht, by rw [hp]; decide, ?_, by rw [hk]; decide, crowd_free ht⟩
  simp only [State.isBarred, State.barFlags, State.manualBar, State.windowBar, State.windowInForce, hp, hk, hz]
  rfl

theorem test_admit_table_empty_witness : ∃ s1, engineTake 0 7 (.admitCall ⟨5, 0, false⟩) (crowd 1024) = some s1 ∧
    TableBooks s1 ∧ (∀ id r, s1.rec? id = some r → ¬ (r.isLive = true ∧ r.owner = 0 ∧ r.ref = 5)) ∧
    s1.policy.classes[(0 : ClassId)].kind = .emergency ∧ s1.isBarred 0 = false ∧ s1.freeRecords = 0 := by
  obtain ⟨s1, h, ht, hp, hk, hz⟩ := crowd_taken 1024 (c := 0) (by decide)
  refine ⟨s1, h, crowd_books (by omega) ht, crowd_fresh ht, by rw [hp]; decide, ?_, crowd_free ht⟩
  simp only [State.isBarred, State.barFlags, State.manualBar, State.windowBar, State.windowInForce, hp, hk, hz]
  rfl

/-- An ADMIT that passes the checks and meets a further check. -/
theorem passes_elim {s : State} {a : AdmitArgs} {c : ClassId} {check : State → Bool}
    (h : takes s 1 (.admitCall a) (fun s1 => tableCheck s1 && orderCheck s1 && (passesCheck s1 1 a c && check s1)) = true) :
    ∃ s1, engineTake 1 7 (.admitCall a) s = some s1 ∧ TableBooks s1 ∧ OrderBooks s1 ∧ PassesChecks s1 1 a c ∧
      check s1 = true := by
  obtain ⟨s1, h, hc⟩ := takes_elim h
  simp only [Bool.and_eq_true] at hc
  exact ⟨s1, h, tableBooks_of_check hc.1.1, orderBooks_of_check hc.1.2, passesChecks_of_check hc.2.1, hc.2.2⟩

/-- Class 2 may wait in the active profile. -/
def mayWait (s : State) : State :=
  { s with policy.rates := s.policy.rates.set 0 (s.policy.rates[(0 : ProfileId)].set 2
      { defaultRate 2 with mayWait := true }) }

/-- 128 places are in use. The count alone is set, as the refusal reads nothing else. -/
def fullList : State := mayWait { busy with wait.count := 128 }

theorem test_admit_list_full_witness : ∃ s1, engineTake 1 7 (.admitCall ask) fullList = some s1 ∧ TableBooks s1 ∧
    PassesChecks s1 1 ask 2 ∧ fits .general 2 s1.pool = false ∧ s1.policy.classes[(2 : ClassId)].isCapable = false ∧
    (s1.activeRate 2).mayWait = true ∧ 128 ≤ s1.wait.count := by
  obtain ⟨s1, h, hc⟩ := takes_elim (s := fullList) (p := 1) (q := .admitCall ask)
    (check := fun s => tableCheck s && passesCheck s 1 ask 2 && (!fits .general 2 s.pool &&
      (!s.policy.classes[(2 : ClassId)].isCapable && ((s.activeRate 2).mayWait && decide (128 ≤ s.wait.count)))))
    (by decide)
  simp only [Bool.and_eq_true, decide_eq_true_eq, Bool.not_eq_true'] at hc
  exact ⟨s1, h, tableBooks_of_check hc.1.1, passesChecks_of_check hc.1.2, hc.2.1, hc.2.2.1, hc.2.2.2.1, hc.2.2.2.2⟩

theorem test_admit_congested_witness : ∃ s1, engineTake 1 7 (.admitCall ask) busy = some s1 ∧ TableBooks s1 ∧
    OrderBooks s1 ∧ PassesChecks s1 1 ask 2 ∧
    (!fits .general 2 s1.pool && !s1.policy.classes[(2 : ClassId)].isCapable && !(s1.activeRate 2).mayWait) = true :=
  passes_elim (by decide)

/-- A GENERAL arrival of 2 units leaves exactly Feff, 34, free. -/
theorem test_admit_direct_witness : ∃ s1, engineTake 1 7 (.admitCall ask)
      (place 68 68 [(0, { call with u := 32, v := 32 })]) = some s1 ∧ TableBooks s1 ∧ OrderBooks s1 ∧
    PassesChecks s1 1 ask 2 ∧ (openCheck s1 4 && fits .general 2 s1.pool && s1.pool.free == 36) = true :=
  passes_elim (by decide)

/-- An EMERGENCY arrival finds no unit free, and one victim. -/
theorem test_admit_preempt_witness : ∃ s1, engineTake 1 7 (.admitCall ⟨9, 0, false⟩) busy = some s1 ∧ TableBooks s1 ∧
    OrderBooks s1 ∧ PassesChecks s1 1 ⟨9, 0, false⟩ 0 ∧
    (openCheck s1 0 && !fits .emergency 4 s1.pool && s1.emptySlot? == some 0 && selectVictims s1 0 4 == some [0]) = true :=
  passes_elim (by decide)

/-- An EMERGENCY arrival finds no victim and waits. -/
theorem test_admit_wait_witness : ∃ s1, engineTake 1 7 (.admitCall ⟨9, 0, false⟩) firm = some s1 ∧ TableBooks s1 ∧
    OrderBooks s1 ∧ PassesChecks s1 1 ⟨9, 0, false⟩ 0 ∧
    (!fits .emergency 4 s1.pool && selectVictims s1 0 4 == none && (s1.activeRate 0).mayWait) = true :=
  passes_elim (by decide)

/-- A waiting emergency blocks a later one that fits. -/
theorem test_admit_blocked_witness : ∃ s1, engineTake 1 7 (.admitCall ⟨9, 0, false⟩) (place 68 68
      [(0, { call with u := 64, v := 64, vulnerable := false }), (1, emergency)]) = some s1 ∧ TableBooks s1 ∧
    OrderBooks s1 ∧ PassesChecks s1 1 ⟨9, 0, false⟩ 0 ∧
    (s1.isBlocked 0 && fits .emergency 4 s1.pool && (s1.activeRate 0).mayWait) = true :=
  passes_elim (by decide)

/-! Requests on records. -/

/-- A record at the last id, in a state of choice. -/
def one (st : RecState) : State := place 64 64 [(1023, { call with state := st })]

/-- A record request of port `p` is taken, and its record is there. -/
def finds (p : Port) (q : Request) (st : RecState) : Bool :=
  takes (one st) p q fun s1 => s1.rec? 1023 == some { call with state := st }

theorem test_record_refusal_witnesses :
    takes State.reset 0 (.release ⟨1023, 5⟩) (fun s1 => s1.rec? 1023 == none) = true ∧
    finds 0 (.cancel ⟨1023, 4⟩) .reclaimed = true ∧ finds 1 (.settle ⟨1023, 5⟩) .expired = true ∧
    finds 0 (.release ⟨1023, 5⟩) (.waiting ⟨20, 2, 200, 0⟩) = true ∧
    finds 0 (.release ⟨1023, 5⟩) .expired = true ∧ finds 0 (.cancel ⟨1023, 5⟩) (.holding .sustain) = true ∧
    finds 0 (.cancel ⟨1023, 5⟩) .reclaimed = true ∧ finds 0 (.settle ⟨1023, 5⟩) (.holding .continuous) = true := by
  decide

theorem test_release_witnesses : finds 0 (.release ⟨1023, 5⟩) (.holding (.setup 1)) = true ∧
    finds 0 (.release ⟨1023, 5⟩) (.preemptPending .sustain 1 0) = true ∧
    finds 0 (.release ⟨1023, 5⟩) .reclaimed = true := by decide

theorem test_cancel_witnesses : finds 0 (.cancel ⟨1023, 5⟩) (.waiting ⟨20, 2, 1, 199⟩) = true ∧
    finds 0 (.cancel ⟨1023, 5⟩) (.collecting ⟨20, 2, 1, 199⟩ 1 [0]) = true ∧
    finds 0 (.cancel ⟨1023, 5⟩) .expired = true := by decide

theorem test_settle_witnesses : finds 0 (.settle ⟨1023, 5⟩) (.holding (.setup 1)) = true ∧
    finds 0 (.settle ⟨1023, 5⟩) (.preemptPending (.setup 1) 1 0) = true := by decide

/-- A SETTLE of a record that holds 2 units and sustains 1 returns 1. -/
theorem test_settle_returns_one :
    (match exec (.settle 0 7 ⟨1023, 5⟩) (one (.holding (.setup 1))) with
      | .next t => some (t.pool.free, (t.rec? 1023).map (·.state))
      | _ => none) = some (63, some (.holding .sustain)) := by decide

theorem test_expiry_witnesses :
    (one (.holding (.setup 0))).rec? 1023 = some { call with state := .holding (.setup 0) } ∧
    (one (.preemptPending (.setup 0) 0 0)).rec? 1023 = some { call with state := .preemptPending (.setup 0) 0 0 } ∧
    (one (.waiting ⟨20, 2, 0, 200⟩)).rec? 1023 = some { call with state := .waiting ⟨20, 2, 0, 200⟩ } ∧
    (one (.collecting ⟨20, 2, 0, 200⟩ 1 [0])).rec? 1023 =
      some { call with state := .collecting ⟨20, 2, 0, 200⟩ 1 [0] } ∧
    (one (.waiting ⟨20, 2, 1, 199⟩)).rec? 1023 = some { call with state := .waiting ⟨20, 2, 1, 199⟩ } ∧
    (one .expired).resetLow = false := by decide

theorem test_freed_witness : TableBooks (gathering 3) ∧ OrderBooks (gathering 3) ∧ NoticeBooks (gathering 3) ∧
    (gathering 3).rec? 0 = some { call with
      u := 61, v := 61, state := .preemptPending .sustain 50 1, notice := some .preempt } :=
  ⟨tableBooks_of_check (by decide), orderBooks_of_check (by decide), noticeBooks_of_check (by decide), by decide⟩

/-! Units. -/

theorem test_return_witness : ∀ (id : RecId) (r : CallRecord), (place 100 90 []).rec? id = some r →
    r.isCollecting = false := by
  intro id r h
  simp [State.rec?, place, findRec] at h

/-- Section 1.6, R14: a return of 10 units against a debt of 10 gives C = 90, D = 0 and free = 0. -/
theorem test_return_retires_the_debt :
    (distribute none 10 { place 100 90 [] with pool.free := 0 }).pool =
      { capacity := 90, target := 90, free := 0, collected := 0, feff := 45, exhausted := true } := by decide

theorem test_collector_witness :
    (gathering 3).rec? 1 = some { emergency with state := .collecting ⟨250, 4, 2500, 0⟩ 3 [0] } ∧
    ((gathering 3).wait.arrival.find? fun j => ((gathering 3).rec? j).any (·.isCollecting)) = some 1 := by decide

/-- One unit completes the collector, and its victim is reprieved. -/
theorem test_collector_completes :
    (giveTo 1 1 (gathering 3)).1.table.records.map (fun e => (e.2.state, e.2.notice)) =
      [(.holding .sustain, some .reprieved), (.holding .continuous, some .granted)] := by decide

/-- An EMERGENCY record of need 4 waits; 4 units are free in `servable4` and 3 in `servable3`. -/
def servable4 : State := place 68 68 [(0, { call with u := 64, v := 64 }), (1, emergency)]

/-- See `servable4`. -/
def servable3 : State := place 67 67 [(0, { call with u := 64, v := 64 }), (1, emergency)]

theorem poolBooks_servable4 : PoolBooks servable4 :=
  ⟨by decide, by decide, by decide, by decide, by decide, by decide, by decide, by decide⟩

theorem test_service_witness : OrderBooks servable4 ∧ PoolBooks servable4 ∧ waitingOrder servable4 = [1] ∧
    fits .emergency 4 servable4.pool = true ∧ OrderBooks servable3 ∧ fits .emergency 4 servable3.pool = false :=
  ⟨orderBooks_of_check (by decide), poolBooks_servable4, by decide, by decide, orderBooks_of_check (by decide), by decide⟩

theorem test_victims_witness : busy.table.holdings.Nodup ∧ busy.pool.free < 1 ∧ selectVictims busy 3 1 = some [0] ∧
    selectVictims busy 4 1 = none := by decide

theorem test_make_witness : busy.emptySlot? = some 0 ∧ [0].Nodup ∧ NoticeBooks busy ∧
    busy.rec? 0 = some { call with u := 64, v := 64 } :=
  ⟨by decide, by decide, noticeBooks_of_check (by decide), by decide⟩

/-! Conditions, notices and readings. -/

/-- A waiting emergency whose waited count is the stall limit, 200 ticks. -/
def stalling : State := place 64 64 [(1, { emergency with state := .waiting ⟨250, 4, 2300, 200⟩ })]

theorem test_condition_witnesses : State.reset.pool.exhausted = false ∧ State.reset.wait.stalled = false ∧
    (evalStalled stalling).wait.stalled = true ∧
    (evalStalled stalling).ports[(3 : Port)].events = Event.stalled.bit ∧
    (evalStalled (place 64 64 [(1, { emergency with state := .waiting ⟨250, 4, 2301, 199⟩ })])).wait.stalled = false ∧
    ({ State.reset with pool.exhausted := true } : State).pool.exhausted = true ∧
    ({ State.reset with wait.stalled := true } : State).wait.stalled = true := by decide

theorem test_post_witnesses : (one .reclaimed).rec? 1023 = some { call with state := .reclaimed } ∧
    (gathering 3).rec? 0 = some { call with
      u := 61, v := 61, state := .preemptPending .sustain 50 1, notice := some .preempt } ∧
    (place 64 64 [(1, { call with state := .expired, notice := some .expired })]).rec? 1 =
      some { call with state := .expired, notice := some .expired } := by decide

/-- Port 0 fetches an empty list, a final notice, and one that is not final. -/
theorem test_fetch_witnesses :
    (∃ s1, engineTake 0 7 .fetchNotice State.reset = some s1 ∧ NoticeBooks s1 ∧ s1.ports[(0 : Port)].notices = []) ∧
    (∃ s1, engineTake 0 7 .fetchNotice (place 64 64 [(1, { call with state := .expired, notice := some .expired })]) =
      some s1 ∧ NoticeBooks s1 ∧ s1.ports[(0 : Port)].notices = [1]) ∧
    (∃ s1, engineTake 0 7 .fetchNotice (gathering 3) = some s1 ∧ NoticeBooks s1 ∧
      s1.ports[(0 : Port)].notices = [0]) := by
  have key : ∀ (s : State) (l : List RecId),
      takes s 0 .fetchNotice (fun s => noticeCheck s && s.ports[(0 : Port)].notices == l) = true →
      ∃ s1, engineTake 0 7 .fetchNotice s = some s1 ∧ NoticeBooks s1 ∧ s1.ports[(0 : Port)].notices = l := by
    intro s l h
    obtain ⟨s1, h, hc⟩ := takes_elim h
    simp only [Bool.and_eq_true, beq_iff_eq] at hc
    exact ⟨s1, h, noticeBooks_of_check hc.1, hc.2⟩
  exact ⟨key _ _ (by decide), key _ _ (by decide), key _ _ (by decide)⟩

/-- The requests without hypotheses of their own are taken from reset, at every port. -/
theorem test_reading_witnesses : ∀ p : Port,
    takes State.reset p .readEvents (fun _ => true) = true ∧ takes State.reset p (.setEnables 0x1FF) (fun _ => true) = true ∧
    takes State.reset p .readPool (fun _ => true) = true ∧ takes State.reset p .readIdent (fun _ => true) = true ∧
    takes State.reset p .readStatus (fun _ => true) = true ∧ takes State.reset p .readTime (fun _ => true) = true ∧
    takes State.reset p (.readClass 15) (fun _ => true) = true ∧
    takes State.reset p (.barSet 0xFFFF) (fun _ => true) = true ∧
    takes State.reset p (.barClear 0xFFFF) (fun _ => true) = true ∧
    takes State.reset p (.rearm 15) (fun _ => true) = true := by decide

theorem test_read_pool_witness : ∃ s1, engineTake 0 7 .readPool (gathering 3) = some s1 ∧ PoolBooks s1 :=
  ⟨_, rfl, ⟨by decide, by decide, by decide, by decide, by decide, by decide, by decide, by decide⟩⟩

theorem test_read_policy_witnesses :
    takes State.reset 0 (.readPolicy ⟨0, 15, 0⟩) (fun _ => true) = true ∧
    takes State.reset 0 (.readPolicy ⟨1, 3, 15⟩) (fun _ => true) = true ∧
    takes State.reset 0 (.readPolicy ⟨2, 3, 0⟩) (fun _ => true) = true ∧
    takes State.reset 0 (.readPolicy ⟨3, 3, 0⟩) (fun _ => true) = true ∧
    takes State.reset 0 (.readPolicy ⟨4, 0, 0⟩) (fun _ => true) = true ∧
    takes State.reset 0 (.readPolicy ⟨5, 7, 0⟩) (fun _ => true) = true ∧
    takes State.reset 0 (.readPolicy ⟨5, 7, 1⟩) (fun _ => true) = true := by decide

theorem test_query_witnesses : takes State.reset 3 (.query 1023) (fun s1 => s1.rec? 1023 == none) = true ∧
    finds 3 (.query 1023) (.waiting ⟨20, 2, 0, 200⟩) = true ∧
    finds 3 (.query 1023) (.collecting ⟨20, 2, 0, 200⟩ 0 [1]) = true ∧
    finds 3 (.query 1023) (.holding (.setup 0)) = true ∧ finds 3 (.query 1023) (.holding .continuous) = true ∧
    finds 3 (.query 1023) (.preemptPending (.setup 0) 0 1) = true ∧
    finds 3 (.query 1023) (.preemptPending .continuous 0 1) = true ∧
    finds 3 (.query 1023) (.preemptPending .sustain 0 1) = true ∧
    finds 3 (.query 1023) .reclaimed = true ∧ finds 3 (.query 1023) .expired = true := by decide

theorem test_summary_witness : ({ State.reset with pacing.level := 3 } : State).pacing.level ≤ 3 ∧
    ({ PortState.reset with events := 0b110 } : PortState).topEvent = 1 ∧
    ({ PortState.reset with events := 0b110 } : PortState).attention = true ∧
    PortState.reset.attention = false := by decide

/-! The policy image. -/

/-- Window 0 is active and locked. -/
def locked : State :=
  { State.reset with
    time.activeWindow := some 0
    policy.windows := State.reset.policy.windows.set 0 { defaultWindow with lock := true } }

theorem test_guard_witnesses :
    Request.expectedGeneration? (.selectProfile ⟨0, 3⟩) = some 0 ∧
    Request.firstBadByte? (.selectProfile ⟨0, 3⟩) = none ∧
    takes locked 0 (.selectProfile ⟨0, 3⟩) (·.isLocked) = true ∧
    takes State.reset 0 (.selectProfile ⟨1, 3⟩) (fun s => !s.isLocked && s.policy.generation != 1) = true ∧
    Request.firstBadByte? (.writeClass ⟨0, 2, 2, 1, true, true, true, 4, 2, 9⟩) = none ∧
    takes (place 64 64 [(0, call)]) 0 (.writeClass ⟨0, 2, 2, 1, true, true, true, 4, 2, 9⟩) (fun s =>
      !s.isLocked && s.policy.generation == 0 && s.policy.classes[(2 : ClassId)].kind != .priority &&
        decide (0 < s.table.classCount[(2 : ClassId)])) = true := by decide

/-- A guarded write of generation 0 is accepted after reset, where no window is locked. -/
def accepts (q : Request) : Bool := takes State.reset 0 q fun s => !s.isLocked && s.policy.generation == 0

theorem test_write_witnesses :
    accepts (.writeClass ⟨0, 15, 0, 255, true, true, true, 0, 255, 0⟩) = true ∧
    accepts (.writeClass ⟨0, 15, 3, 255, true, true, true, 0, 255, 0⟩) = true ∧
    accepts (.writeRates ⟨0, 3, 15, 15, 15, 0, 2, false, 0⟩) = true ∧
    accepts (.writeRates ⟨0, 0, 15, 15, 15, 1023, 2, true, 255⟩) = true ∧
    accepts (.writeThresholds ⟨0, 3, 0, 255, 1, 255, 0, 255⟩) = true ∧
    accepts (.writeLimits ⟨0, 0, 1023, 0, 0, 0, 0⟩) = true ∧
    accepts (.selectProfile ⟨0, 3⟩) = true ∧
    accepts (.writeWindow ⟨0, 7, true, false, true, 0xFFFFFFFF, 0xFFFF, 3, 15⟩) = true ∧
    accepts (.writeWindowBars ⟨0, 7, 0xFFFF⟩) = true := by decide

theorem test_code_witnesses : kindOf? 3 = some .general ∧ kindOf? 0 = some .unused ∧ modeOf? 2 = some .oneshot ∧
    profileOf? 3 = some 3 ∧ profileOf? 4 = none ∧ kindOf? 4 = none ∧ modeOf? 3 = none := by decide

/-- A window of one minute from 600 on contains 600 and 659, and neither 599 nor 660. -/
theorem test_window_bounds :
    (let w := { defaultWindow with enabled := true, start := 600 }
     let at' := fun n => w.containsNow { TimeBase.reset with state := .running, seconds := n }
     (at' 599, at' 600, at' 659, at' 660)) = (false, true, true, false) := by decide

/-- Only window 7 contains now. -/
def inWindow7 : State :=
  { State.reset with
    time.state := .running, time.seconds := 600
    policy.windows := State.reset.policy.windows.set 7
      { defaultWindow with enabled := true, start := 600, minimum := 3, profile := 1 } }

theorem test_active_window_witnesses :
    (∀ i : WindowId, State.reset.policy.windows[i].containsNow State.reset.time = false) ∧
    inWindow7.policy.windows[(7 : WindowId)].containsNow inWindow7.time = true ∧
    (∀ j : WindowId, j < 7 → inWindow7.policy.windows[j].containsNow inWindow7.time = false) := by decide

theorem test_window_applies :
    (let t := evalWindow inWindow7
     (t.time.activeWindow, t.time.activeProfile, t.pacing.level, t.ports[(0 : Port)].events)) =
      (some 7, 1, 3, Event.window.bit ||| Event.pressure.bit) := by decide

theorem test_only_policy_witness : ∃ t, exec .tick State.reset = .next t := ⟨_, rfl⟩

/-! Capacity, time and boundaries. -/

theorem test_capacity_witnesses : takes State.reset 0 (.writeCapacity 1024) (fun s => s.pool.capacity == 1024) = true ∧
    takes State.reset 0 (.writeCapacity 1023) (fun s => s.pool.capacity == 1024) = true := by decide

/-- The cut of section 11.3, step b: 512 to 400 with 108 units free. -/
theorem test_capacity_cut :
    (writeTarget 400 { State.reset with pool := ⟨512, 512, 108, 0, 64, false⟩ }).pool = ⟨404, 400, 0, 0, 64, true⟩ := by
  decide

/-- Section 8.7, b: a difference of 50 ticks is slewed. -/
def at699999000 : State :=
  { State.reset with time.state := .running, time.seconds := 699999000, time.tickInSecond := 90 }

theorem test_set_time_slews :
    (setTimeOfDay 699999001 40 at699999000).time = { at699999000.time with slew := 50 } := by decide

theorem test_set_time_witnesses : takes State.reset 0 (.setTime ⟨0, 255⟩) (fun _ => true) = true ∧
    takes at699999000 0 (.setTime ⟨699999002, 90⟩) (fun _ => true) = true ∧
    takes at699999000 0 (.setTime ⟨699999002, 91⟩) (fun _ => true) = true := by decide

theorem test_tick_witness : State.reset.resetLow = false ∧
    ({ State.reset with resetLow := true } : State).resetLow = true ∧
    (one (.waiting ⟨20, 2, 1, 199⟩)).rec? 1023 = some { call with state := .waiting ⟨20, 2, 1, 199⟩ } ∧
    (one (.collecting ⟨20, 2, 1, 199⟩ 1 [0])).rec? 1023 =
      some { call with state := .collecting ⟨20, 2, 1, 199⟩ 1 [0] } ∧
    (one (.preemptPending (.setup 1) 1 0)).rec? 1023 = some { call with state := .preemptPending (.setup 1) 1 0 } ∧
    (one (.preemptPending .sustain 1 0)).rec? 1023 = some { call with state := .preemptPending .sustain 1 0 } ∧
    (one (.holding (.setup 1))).rec? 1023 = some { call with state := .holding (.setup 1) } ∧
    (one (.waiting ⟨20, 2, 0, 200⟩)).rec? 1023 = some { call with state := .waiting ⟨20, 2, 0, 200⟩ } := by decide

/-- A running time with a tick-in-second, a slew remainder, the held flag and a boundary that is due. -/
def clock (n : Nat) (slew : Int) (held : Bool) (due : Option SecondEnd) : State :=
  { State.reset with time := { TimeBase.reset with
      state := .running, tickInSecond := n, slew := slew, held := held, secondDue := due } }

/-- How a tick leaves the tick-in-second, the held flag and the boundary: the lengths of section 8.2. -/
theorem test_second_lengths :
    (let after := fun (s : State) => (s.time.tick.tickInSecond, s.time.tick.held, s.time.tick.secondDue)
     [after (clock 97 1 false none), after (clock 98 1 false none), after (clock 98 0 false none),
      after (clock 99 (-1) false none), after (clock 99 0 false none), after (clock 99 (-1) true none)]) =
      [(98, false, none), (98, false, some .short), (99, false, none), (99, true, none), (99, false, some .full),
       (99, true, some .held)] := by decide

theorem test_second_boundary_witnesses : (clock 98 200 false (some .short)).time.secondDue = some .short ∧
    (clock 98 (-200) false (some .short)).time.slew = -200 ∧ (clock 99 0 false (some .full)).time.secondDue = some .full ∧
    (clock 99 (-1) true (some .held)).time.secondDue = some .held ∧ (clock 99 0 true (some .held)).time.slew = 0 := by decide

theorem test_boundary_witness : TableBooks exampleB1 ∧ exampleB1.resetLow = false ∧ exampleB1.pacing.boundaryDue = true :=
  ⟨tableBooks_of_check (by decide), by decide, by decide⟩

/-- The boundary work is due; an emergency of need 4 waits behind nothing, with a vulnerable call to take. -/
def retrying : State :=
  { place 64 64 [(0, { call with u := 64, v := 64 }), (1, emergency)] with wait.boundaryDue := true }

theorem test_boundary_work_witness : retrying.resetLow = false ∧ retrying.wait.boundaryDue = true ∧
    retrying.rec? 1 = some emergency ∧ retrying.pool.free < 4 ∧ selectVictims retrying 0 4 = some [0] ∧
    selectVictims (place 64 64 [(0, { call with u := 64, v := 64, vulnerable := false }), (1, emergency)]) 0 4 = none ∧
    4 ≤ servable4.pool.free ∧
    (place 64 64 [(1, { call with state := .waiting ⟨20, 2, 9, 191⟩ })]).rec? 1 =
      some { call with state := .waiting ⟨20, 2, 9, 191⟩ } := by decide

theorem test_boundary_work_collects :
    (match exec .waitListBoundaryWork retrying with
      | .next t => t.table.records.map fun e => e.2.state
      | _ => []) = [.preemptPending .sustain 50 1, .collecting ⟨250, 4, 2500, 0⟩ 0 [0]] := by decide

/-! Ports and resets. -/

/-- A port with an executed request and its response, in a transaction if one is given. -/
def answered1 (t : Option Transaction) : State := State.reset.updPort 0 fun ps =>
  { ps with inflight := [⟨encodeRequest 3 .readPool, true⟩], responses := [⟨3, .done, noData⟩], transaction := t }

/-- A port that shifts an EMPTY frame out with `n` requests in flight. -/
def full (n : Nat) : State := State.reset.updPort 0 fun ps =>
  { ps with inflight := List.replicate n ⟨encodeRequest 3 .readPool, false⟩, transaction := some ⟨true, none, false, true⟩ }

/-- A port whose PRST# is held. -/
def held : State := State.reset.updPort 0 fun ps => { ps with prstLow := true }

theorem test_transaction_witnesses :
    (answered1 none).ports[(0 : Port)].transaction = none ∧ (answered1 none).ports[(0 : Port)].prstLow = false ∧
    (answered1 none).ports[(0 : Port)].inflight = [⟨encodeRequest 3 .readPool, true⟩] ∧
    (answered1 none).ports[(0 : Port)].responses = [⟨3, .done, noData⟩] ∧
    State.reset.ports[(0 : Port)].inflight = [] ∧
    contest.ports[(0 : Port)].inflight = [⟨encodeRequest 3 (.release ⟨0, 5⟩), false⟩] ∧
    held.ports[(0 : Port)].transaction = none ∧ held.ports[(0 : Port)].prstLow = true ∧
    (full 4).ports[(0 : Port)].transaction = some ⟨true, none, false, true⟩ ∧
    (full 4).ports[(0 : Port)].inflight.length = 4 ∧ (full 3).ports[(0 : Port)].inflight.length = 3 ∧
    (encodeRequest 5 .readPool).b0 ≠ 0 ∧
    (answered1 (some ⟨true, none, true, true⟩)).ports[(0 : Port)].transaction = some ⟨true, none, true, true⟩ ∧
    (answered1 (some ⟨false, none, false, false⟩)).ports[(0 : Port)].transaction = some ⟨false, none, false, false⟩ := by
  decide

/-- The frame that reset's first transaction shows: summary with top event 15 and 4 free slots (R186), all else 0. -/
theorem test_first_empty_frame :
    (match exec (.transactionStart 0) State.reset with
      | .next t => t.ports[(0 : Port)].transaction.map (·.out)
      | _ => none) = some (some ⟨0x78, 0x04, 0, 0, 0, 0, 0, 0, 0, 0, 0, 0⟩) := by decide

/-- Port 0, which owns a call, has PRST# high, or a reset sequence in progress. -/
def resetting (q : Option ResetSeq) : State := (one (.holding .sustain)).updPort 0 fun ps => { ps with resetSeq := q }

theorem test_port_reset_witnesses : TableBooks (resetting none) ∧
    (resetting none).rec? 1023 = some call ∧ (resetting none).ports[(0 : Port)].prstLow = false ∧
    TableBooks State.reset ∧ (∀ id r, State.reset.rec? id = some r → r.owner ≠ 0) :=
  ⟨tableBooks_of_check (by decide), by decide, by decide, tableBooks_of_check (by decide),
    fun id r h => by simp [State.rec?, State.reset, CallTable.reset, findRec] at h⟩

theorem test_reset_record_witness : TableBooks (resetting (some .byPin)) ∧
    (resetting (some .byPin)).ports[(0 : Port)].resetSeq = some .byPin ∧
    (resetting (some .byPin)).rec? 1023 = some call ∧
    (∀ j x, (resetting (some .byPin)).rec? j = some x → x.owner = 0 → 1023 ≤ j) := by
  refine ⟨tableBooks_of_check (by decide), by decide, by decide, fun j x h _ => ?_⟩
  have := (State.rec?_eq_some (s := resetting (some .byPin)) (by decide) j x).1 h
  have e : (resetting (some .byPin)).table.records = [(1023, call)] := by decide
  rw [e, List.mem_singleton] at this
  exact Nat.le_of_eq (Prod.mk.inj this).1.symm

theorem test_reset_record_ends :
    (match exec (.portResetRecord 0) (resetting (some .byPin)) with
      | .next t => some (t.table.records, t.pool.free, t.ports[(0 : Port)].resetSeq)
      | _ => none) = some ([], 64, none) := by decide

/-- Port 1 is in the execution of a PORT_CLEAR while a reset sequence of port 0 is in progress. -/
def clearing (q : ResetSeq) : State :=
  (resetting (some q)).updPort 1 fun ps => { ps with resetSeq := some (.byClear (some ⟨3, .done, noData⟩)) }

theorem test_reset_record_runs_witness : (resetting (some .byPin)).resetLow = false ∧
    ∀ q : Port, (resetting (some .byPin)).ports[q].resetSeq = none ∨
      (resetting (some .byPin)).ports[q].resetSeq = some .byPin := by decide

theorem test_pin_waits_witness : (clearing .byPin).ports[(0 : Port)].resetSeq = some .byPin ∧
    (clearing .byPin).ports[(1 : Port)].resetSeq = some (.byClear (some ⟨3, .done, noData⟩)) ∧
    (clearing .byPin).resetLow = false := by decide

/-- R189: the sequence of PRST# is not taken within the execution of a PORT_CLEAR. -/
theorem test_pin_waits_for_clear : exec (.portResetRecord 0) (clearing .byPin) = .next (clearing .byPin) := by rfl

/-- R192: a fall of PRST# discards the response of the port's own PORT_CLEAR, whose sequence goes on. -/
theorem test_fall_discards_clear :
    (match exec (.portReset 0) (resetting (some (.byClear (some ⟨3, .done, noData⟩)))) with
      | .next t => some (t.table.records.length, t.ports[(0 : Port)].resetSeq)
      | _ => none) = some (1, some (.byClear none)) := by decide

theorem test_port_clear_witnesses : takes State.reset 0 .portClear (fun s => s.table.records.isEmpty) = true ∧
    takes (one (.holding .sustain)) 0 .portClear (fun s => !s.table.records.isEmpty) = true := by decide

/-! What every step keeps: a state with a collector and its victim meets every premise, and a TICK is a step from it. -/

/-- `gathering`, with a TICK waiting. -/
def ticking : State := { gathering 3 with pending := [.tick] }

theorem ticking_poolBooks : PoolBooks ticking :=
  ⟨by decide, by decide, by decide, by decide, by decide, by decide, by decide, by decide⟩
theorem ticking_policyClamped : PolicyClamped ticking :=
  ⟨by decide, by decide, by decide, by decide, by decide, by decide⟩
theorem ticking_pacingInRange : PacingInRange ticking :=
  ⟨by decide, by decide, by decide, by decide, by decide⟩

theorem test_invariant_witness : PoolBooks ticking ∧ PolicyClamped ticking ∧ PacingInRange ticking ∧
    QueuesAgree ticking ∧ NoticeBooks ticking ∧ OrderBooks ticking ∧ TableBooks ticking ∧ FreeLast ticking ∧
    CollectorBooks ticking ∧ TimeInRange ticking.time ∧ ProfileFollows ticking ∧ ∃ t, step ticking = .next t :=
  ⟨ticking_poolBooks, ticking_policyClamped, ticking_pacingInRange, by unfold QueuesAgree; decide,
    noticeBooks_of_check (by decide), orderBooks_of_check (by decide), tableBooks_of_check (by decide),
    freeLast_of_check (by decide), collectorBooks_of_check (by decide),
    ⟨by decide, by decide, by decide⟩, by unfold ProfileFollows; decide, _, rfl⟩

theorem test_snapshot_witness : ∃ t r x, TableBooks ticking ∧ step ticking = .next t ∧ ticking.rec? 1 = some r ∧
    t.rec? 1 = some x ∧ r ≠ x :=
  ⟨_, { emergency with state := .collecting ⟨250, 4, 2500, 0⟩ 3 [0] },
    { emergency with state := .collecting ⟨250, 4, 2499, 1⟩ 3 [0] }, tableBooks_of_check (by decide), rfl, by decide,
    by decide, by decide⟩

end Sys2Proof.Tests
end

section
/-! PROOFS. Admission (03_admission.md): the consumption of allowance, the record that an arrival takes, each step of an
ADMIT as an equation of the state it is executed in, and the statements of chapter 3. -/

namespace Sys2Proof.Machine.Admission

/-! Consumption (R49, R117). -/

theorem consume_other {c : ClassId} {k : Kind} (s : State) (h : k ≠ .general) : consume c k s = s := by
  simp [consume, h]

theorem consume_last {c : ClassId} {s : State}
    (h : (s.activeRate c).mode = .oneshot ∧ s.pacing.classes[c].allowance = 1) :
    consume c .general s = raiseAll .classSpent (s.updPacing c fun x =>
      { x with allowance := s.pacing.classes[c].allowance - 1, exhausted := true }) := by
  simp only [consume, ne_eq, not_true_eq_false, if_false, if_pos h]
  simp [State.updPacing]

theorem consume_more {c : ClassId} {s : State}
    (h : ¬ ((s.activeRate c).mode = .oneshot ∧ s.pacing.classes[c].allowance = 1)) :
    consume c .general s = s.updPacing c fun x => { x with allowance := s.pacing.classes[c].allowance - 1 } := by
  simp only [consume, ne_eq, not_true_eq_false, if_false, if_neg h]

/-- Consumption changes the Pacing Unit and the events of the ports alone. -/
theorem consume_frame (c : ClassId) (k : Kind) (s : State) :
    (consume c k s).table = s.table ∧ (consume c k s).wait = s.wait := by
  by_cases hk : k = .general
  · subst hk
    by_cases h : (s.activeRate c).mode = .oneshot ∧ s.pacing.classes[c].allowance = 1
    · rw [consume_last h]; exact ⟨rfl, rfl⟩
    · rw [consume_more h]; exact ⟨rfl, rfl⟩
  · rw [consume_other s hk]; exact ⟨rfl, rfl⟩

theorem consume_allowance (c : ClassId) (s : State) :
    (consume c .general s).pacing.classes[c].allowance = s.pacing.classes[c].allowance - 1 := by
  by_cases h : (s.activeRate c).mode = .oneshot ∧ s.pacing.classes[c].allowance = 1
  · rw [consume_last h]; simp
  · rw [consume_more h]; simp

/-- CLASS_SPENT is latched at a port whose PRST# is high (R171). -/
theorem latch_classSpent (ps : PortState) : ps.latch .classSpent =
    if ps.prstLow = false then { ps with events := ps.events ||| 1#9 <<< 6 } else ps := by
  cases h : ps.prstLow <;> simp [PortState.latch, h, Event.bit, Event.num]

/-- Settles O11: the last unit of a ONESHOT class is told apart, as R117 does. -/
theorem consumptionSpendsOneUnit : Obligations.ConsumptionSpendsOneUnit := by
  intro s c k
  refine ⟨consume_other s, ?_⟩
  rintro rfl
  by_cases h : (s.activeRate c).mode = .oneshot ∧ s.pacing.classes[c].allowance = 1
  · rw [consume_last h]
    simp only [raiseAll, State.updPorts, State.updPacing, latch_classSpent, h, and_self, true_and, if_true]
  · rw [consume_more h]
    have hports : (Vector.ofFn fun p : Port => s.ports[p]) = s.ports := Vector.ofFn_getElem
    simp only [State.updPacing, h, false_and, if_false, hports]

/-! The record that an arrival takes (R20). -/

/-- The search for the lowest FREE id goes one id further for each listed one at most. -/
theorem lowestFreeFrom_le (k : RecId) (rs : List (RecId × CallRecord)) : lowestFreeFrom k rs ≤ k + rs.length := by
  induction rs generalizing k with
  | nil => exact Nat.le_refl k
  | cons e rest ih =>
    unfold lowestFreeFrom
    split
    · calc lowestFreeFrom (k + 1) rest ≤ k + 1 + rest.length := ih (k + 1)
        _ = k + (rest.length + 1) := Nat.succ_add_eq_add_succ k rest.length
    · exact Nat.le_add_right k _

theorem findRec_of_lt_lowestFreeFrom {k j : RecId} {rs : List (RecId × CallRecord)} (hk : k ≤ j)
    (hj : j < lowestFreeFrom k rs) : findRec rs j ≠ none := by
  induction rs generalizing k with
  | nil => exact absurd hj (Nat.not_lt.2 hk)
  | cons e rest ih =>
    obtain ⟨i, x⟩ := e
    unfold lowestFreeFrom at hj
    split at hj
    · next hi =>
      by_cases hij : i = j
      · simp [findRec, hij]
      · have hlt : k < j := Nat.lt_of_le_of_ne hk (hi ▸ hij)
        simpa [findRec, hij] using ih hlt hj
    · exact absurd hj (Nat.not_lt.2 hk)

/-- While a record is FREE, the one that an allocation takes is FREE and has an id of the part, and none below it is
FREE. -/
theorem lowestFree_spec {s : State} (ht : TableBooks s) (hf : 1 ≤ s.freeRecords) :
    s.lowestFree < 1024 ∧ s.rec? s.lowestFree = none ∧ ∀ j : RecId, j < s.lowestFree → s.rec? j ≠ none := by
  refine ⟨?_, s.rec?_lowestFree ht.idsRise, fun j hj => findRec_of_lt_lowestFreeFrom (Nat.zero_le j) hj⟩
  have hlen : s.table.records.length < 1024 := Nat.lt_of_sub_pos hf
  calc s.lowestFree ≤ 0 + s.table.records.length := lowestFreeFrom_le 0 s.table.records
    _ = s.table.records.length := Nat.zero_add _
    _ < 1024 := hlen

/-- Of two records stored at one id the later one stays. -/
theorem putRec_putRec (rs : List (RecId × CallRecord)) (id : RecId) (r x : CallRecord) :
    putRec (putRec rs id r) id x = putRec rs id x := by
  induction rs with
  | nil => simp [putRec]
  | cons e rest ih =>
    obtain ⟨k, y⟩ := e
    rcases Nat.lt_trichotomy id k with hlt | rfl | hgt
    · simp [putRec, hlt]
    · simp [putRec]
    · simp [putRec, Nat.lt_asymm hgt, Nat.ne_of_gt hgt, ih]

/-! The steps of an ADMIT (R43). -/

theorem exec_admitCall_answered {s s1 t : State} {p : Port} {tag : Byte} {a : AdmitArgs} {r : ResultCode}
    {bs : List Byte} (h : engineTake p tag (.admitCall a) s = some s1) (hrun : runAdmit p a s1 = answered t r bs) :
    exec (.admitCall p tag a) s = .next (t.respond p r bs) := by
  have hexec : exec (.admitCall p tag a) s = runRequest p tag (.admitCall a) (runAdmit p a) s := rfl
  rw [hexec, runRequest_taken h, hrun]
  rfl

theorem runAdmit_unused {p : Port} {a : AdmitArgs} {c : ClassId} {s : State} (hc : classOf? a.cls = some c)
    (hk : s.policy.classes[c].kind = .unused) : runAdmit p a s = answered s .unusedClass [] := by
  simp only [runAdmit, hc, hk, if_true]
  rfl

theorem runAdmit_used {p : Port} {a : AdmitArgs} {c : ClassId} {s : State} (hc : classOf? a.cls = some c)
    (hk : s.policy.classes[c].kind ≠ .unused) :
    runAdmit p a s = admitChecked p a c s.policy.classes[c] (countAttempt c s) := by
  simp only [runAdmit, hc, hk, if_false]

/-- Counting an attempt keeps the table, so it keeps the books of it. -/
theorem tableBooks_countAttempt {s : State} (c : ClassId) (h : TableBooks s) : TableBooks (countAttempt c s) :=
  ⟨h.idsRise, h.ids, h.counts, h.references⟩

theorem barFlags_countAttempt (c : ClassId) (s : State) : (countAttempt c s).barFlags c = s.barFlags c := by
  simp [State.barFlags, State.manualBar, State.windowBar, State.windowInForce, countAttempt]

theorem isBarred_countAttempt (c : ClassId) (s : State) : (countAttempt c s).isBarred c = s.isBarred c :=
  congrArg (fun fs : List Bool => s.policy.classes[c].kind != .emergency && fs.any id) (barFlags_countAttempt c s)

theorem allowance_countAttempt (c : ClassId) (s : State) :
    (countAttempt c s).pacing.classes[c].allowance = s.pacing.classes[c].allowance := by
  simp [countAttempt]

/-- A port's live record of a reference is the one that the search finds, since no other has it (R23). -/
theorem liveRecord?_eq_some {s : State} {p : Port} {ref : Half} {id : RecId} {r : CallRecord} (ht : TableBooks s)
    (hr : s.rec? id = some r) (hl : r.isLive = true) (ho : r.owner = p) (hf : r.ref = ref) :
    liveRecord? p ref s.table.records = some id := by
  unfold liveRecord?
  cases hfind : s.table.records.find? fun e => e.2.owner = p ∧ e.2.ref = ref ∧ e.2.isLive = true with
  | none =>
    have hm := (State.rec?_eq_some ht.idsRise id r).1 hr
    have hno := List.find?_eq_none.1 hfind _ hm
    exact absurd (decide_eq_true ⟨ho, hf, hl⟩) hno
  | some e =>
    obtain ⟨j, x⟩ := e
    have hx := (State.rec?_eq_some ht.idsRise j x).2 (List.mem_of_find?_eq_some hfind)
    obtain ⟨hxo, hxf, hxl⟩ : x.owner = p ∧ x.ref = ref ∧ x.isLive = true := by simpa using List.find?_some hfind
    have hid : j = id := ht.references j id x r hx hr hxl hl (hxo.trans ho.symm) (hxf.trans hf.symm)
    simp [hid]

theorem liveRecord?_eq_none {s : State} {p : Port} {ref : Half} (ht : TableBooks s)
    (h : ∀ (id : RecId) (r : CallRecord), s.rec? id = some r → ¬ (r.isLive = true ∧ r.owner = p ∧ r.ref = ref)) :
    liveRecord? p ref s.table.records = none := by
  unfold liveRecord?
  rw [Option.map_eq_none_iff, List.find?_eq_none]
  rintro ⟨id, r⟩ hm hd
  obtain ⟨ho, hf, hl⟩ := of_decide_eq_true hd
  exact h id r ((State.rec?_eq_some ht.idsRise id r).2 hm) ⟨hl, ho, hf⟩

theorem isBlocked_iff {s : State} {l : Level} (ht : TableBooks s) : s.isBlocked l = true ↔ Blocks s l := by
  unfold State.isBlocked Blocks
  simp only [List.any_eq_true, Bool.and_eq_true, decide_eq_true_eq, Prod.exists, State.rec?_eq_some ht.idsRise]

theorem isBlocked_eq_false {s : State} {l : Level} (ht : TableBooks s) (h : ¬ Blocks s l) : s.isBlocked l = false :=
  Bool.eq_false_iff.2 fun hb => h ((isBlocked_iff ht).1 hb)

theorem hasRecordFor_iff {s : State} {k : Kind} :
    s.hasRecordFor k = true ↔ if k = .general then 33 ≤ s.freeRecords else 1 ≤ s.freeRecords := by
  cases k <;> exact decide_eq_true_iff

theorem hasRecordFor_eq_false {s : State} {k : Kind}
    (h : if k = .general then s.freeRecords < 33 else s.freeRecords = 0) : s.hasRecordFor k = false := by
  rw [Bool.eq_false_iff, ne_eq, hasRecordFor_iff]
  split at h <;> simp [*]

section
variable {p : Port} {a : AdmitArgs} {c : ClassId} {e : ClassEntry} {s : State}

theorem admitChecked_duplicate {id : RecId} (h : liveRecord? p a.ref s.table.records = some id) :
    admitChecked p a c e s = answered s .duplicate (numBytes2 id) := by
  simp only [admitChecked, h]
  rfl

theorem admitChecked_barred (hn : liveRecord? p a.ref s.table.records = none) (hb : s.isBarred c = true) :
    admitChecked p a c e s = answered s .barred [flagsByte (s.barFlags c)] := by
  simp only [admitChecked, hn, hb, if_true]
  rfl

theorem admitChecked_paced (hn : liveRecord? p a.ref s.table.records = none) (hb : s.isBarred c = false)
    (hk : e.kind = .general) (hz : s.pacing.classes[c].allowance = 0) :
    admitChecked p a c e s = answered s .paced [byteOf s.pacing.countdown] := by
  simp only [admitChecked, hn, hb, hk, hz, and_self, if_true, Bool.false_eq_true, if_false]
  rfl

theorem admitChecked_tableFull (hn : liveRecord? p a.ref s.table.records = none) (hb : s.isBarred c = false)
    (hp : ¬ (e.kind = .general ∧ s.pacing.classes[c].allowance = 0)) (hr : s.hasRecordFor e.kind = false) :
    admitChecked p a c e s = answered s .tableFull (numBytes2 s.freeRecords) := by
  simp only [admitChecked, hn, hb, hp, hr, if_true, Bool.false_eq_true, if_false]
  rfl

theorem admitChecked_place (hn : liveRecord? p a.ref s.table.records = none) (hb : s.isBarred c = false)
    (hp : ¬ (e.kind = .general ∧ s.pacing.classes[c].allowance = 0)) (hr : s.hasRecordFor e.kind = true) :
    admitChecked p a c e s = admitPlace p a c e s := by
  simp only [admitChecked, hn, hb, hp, hr, Bool.true_eq_false, Bool.false_eq_true, if_false]

theorem admitPlace_direct (hb : s.isBlocked e.level = false) (hf : fits e.kind e.u s.pool = true) :
    admitPlace p a c e s = admitDirectly p a.ref c e s := by
  simp only [admitPlace, hb, hf, and_self, if_true]

theorem admitPlace_preempt {victims : List RecId} (hf : fits e.kind e.u s.pool = false)
    (hv : admitVictims e (s.isBlocked e.level) s = some victims) :
    admitPlace p a c e s = admitCollecting p a.ref c e victims s := by
  simp only [admitPlace, hf, hv, Bool.false_eq_true, and_false, if_false]

theorem admitPlace_wait (hn : ¬ (s.isBlocked e.level = false ∧ fits e.kind e.u s.pool = true))
    (hv : admitVictims e (s.isBlocked e.level) s = none) :
    admitPlace p a c e s = admitWaitOrRefuse p a c e (s.isBlocked e.level) s := by
  simp only [admitPlace, if_neg hn, hv]

theorem isCapable_iff : e.isCapable = true ↔ e.kind = .emergency ∨ e.kind = .priority ∧ e.preempt = true := by
  unfold ClassEntry.isCapable
  split <;> simp [*]

theorem admitVictims_allowed (hc : e.isCapable = true) (hb : s.isBlocked e.level = false) (hw : s.wait.count < 128) :
    admitVictims e (s.isBlocked e.level) s = selectVictims s e.level e.u :=
  if_pos ⟨hc, hb, hw⟩

/-- No victim is found where a condition of R53 fails, or selection does. -/
theorem admitVictims_none (h : e.isCapable = false ∨ s.isBlocked e.level = true ∨ 128 ≤ s.wait.count ∨
    selectVictims s e.level e.u = none) : admitVictims e (s.isBlocked e.level) s = none := by
  unfold admitVictims
  split
  · next hall =>
    obtain ⟨hc, hb, hw⟩ := hall
    have hw' : ¬ 128 ≤ s.wait.count := Nat.not_le.2 hw
    simpa [hc, hb, hw'] using h
  · rfl

end

/-- An ADMIT that passes the checks comes to step 7. -/
theorem runAdmit_passes {p : Port} {a : AdmitArgs} {c : ClassId} {s : State} (hc : classOf? a.cls = some c)
    (ht : TableBooks s) (h : PassesChecks s p a c) :
    runAdmit p a s = admitPlace p a c s.policy.classes[c] (countAttempt c s) := by
  obtain ⟨hused, hfresh, hbar, hpaced, hroom⟩ := h
  have hp : ¬ (s.policy.classes[c].kind = .general ∧ (countAttempt c s).pacing.classes[c].allowance = 0) := by
    rw [allowance_countAttempt]
    rintro ⟨hk, hz⟩
    exact Nat.ne_of_gt (hpaced hk) hz
  rw [runAdmit_used hc hused]
  exact admitChecked_place (liveRecord?_eq_none (tableBooks_countAttempt c ht) hfresh)
    ((isBarred_countAttempt c s).trans hbar) hp (hasRecordFor_iff.2 hroom)

section
variable {p : Port} {a : AdmitArgs} {c : ClassId} {s : State}

/-- An ADMIT that passes the checks, is not blocked and fits is admitted directly. -/
theorem runAdmit_direct (hc : classOf? a.cls = some c) (ht : TableBooks s) (h : PassesChecks s p a c)
    (hb : ¬ Blocks s s.policy.classes[c].level)
    (hf : fits s.policy.classes[c].kind s.policy.classes[c].u s.pool = true) :
    runAdmit p a s = admitDirectly p a.ref c s.policy.classes[c] (countAttempt c s) := by
  rw [runAdmit_passes hc ht h]
  exact admitPlace_direct (isBlocked_eq_false (tableBooks_countAttempt c ht) hb) hf

/-- An ADMIT that passes the checks, finds no unit and may pre-empt takes the victims that are selected. -/
theorem runAdmit_collects {victims : List RecId} (hc : classOf? a.cls = some c) (ht : TableBooks s)
    (h : PassesChecks s p a c) (hb : ¬ Blocks s s.policy.classes[c].level)
    (hf : fits s.policy.classes[c].kind s.policy.classes[c].u s.pool = false)
    (hcap : s.policy.classes[c].isCapable = true) (hw : s.wait.count < 128)
    (hv : selectVictims s s.policy.classes[c].level s.policy.classes[c].u = some victims) :
    runAdmit p a s = admitCollecting p a.ref c s.policy.classes[c] victims (countAttempt c s) := by
  rw [runAdmit_passes hc ht h]
  have hfree : (countAttempt c s).isBlocked s.policy.classes[c].level = false :=
    isBlocked_eq_false (tableBooks_countAttempt c ht) hb
  exact admitPlace_preempt hf ((admitVictims_allowed hcap hfree hw).trans hv)

/-- An ADMIT that passes the checks and finds neither units nor victims comes to step 9. -/
theorem runAdmit_waits (hc : classOf? a.cls = some c) (ht : TableBooks s) (h : PassesChecks s p a c)
    (hn : Blocks s s.policy.classes[c].level ∨ fits s.policy.classes[c].kind s.policy.classes[c].u s.pool = false)
    (hv : s.policy.classes[c].isCapable = false ∨ Blocks s s.policy.classes[c].level ∨ 128 ≤ s.wait.count ∨
      selectVictims s s.policy.classes[c].level s.policy.classes[c].u = none) :
    runAdmit p a s = admitWaitOrRefuse p a c s.policy.classes[c] (s.isBlocked s.policy.classes[c].level)
      (countAttempt c s) := by
  rw [runAdmit_passes hc ht h]
  rw [← isBlocked_iff ht] at hn hv
  refine admitPlace_wait ?_ (admitVictims_none hv)
  rintro ⟨hb, hf⟩
  rcases hn with hb' | hf'
  · exact Bool.false_ne_true (hb.symm.trans hb')
  · exact Bool.false_ne_true (hf'.symm.trans hf)

variable {e : ClassEntry} {blocked : Bool}

theorem admitWaitOrRefuse_enters (hm : (s.activeRate c).mayWait = true) (hn : a.nowait = false)
    (hw : s.wait.count < 128) : admitWaitOrRefuse p a c e blocked s = admitWaiting p a.ref c e s :=
  if_pos ⟨hm, hn, hw⟩

theorem admitWaitOrRefuse_listFull (hm : (s.activeRate c).mayWait = true) (hn : a.nowait = false)
    (hw : 128 ≤ s.wait.count) : admitWaitOrRefuse p a c e blocked s = answered s .listFull [byteOf s.wait.count] := by
  have hfull : ¬ s.wait.count < Config.waitPlaces := Nat.not_lt.2 hw
  simp only [admitWaitOrRefuse, hm, hn, hfull, and_false, and_self, if_false, if_true]
  rfl

theorem admitWaitOrRefuse_congested (h : (s.activeRate c).mayWait = false ∨ a.nowait = true) :
    admitWaitOrRefuse p a c e blocked s =
      answered s .congested (numBytes2 s.pool.free ++ [flagsByte [blocked]]) := by
  rcases h with h | h <;>
    simp only [admitWaitOrRefuse, h, Bool.true_eq_false, Bool.false_eq_true, and_false, false_and, if_false] <;> rfl

end

/-- Settles O7: step by step through the table of R43, each refusal by the equation of its step. -/
theorem admitRefusedByFirstFailingStep : Obligations.AdmitRefusedByFirstFailingStep := by
  intro s s1 p tag a c h hc ht e counted refused fresh
  have htc : TableBooks counted := tableBooks_countAttempt c ht
  have hnone : fresh → liveRecord? p a.ref counted.table.records = none :=
    fun hn => liveRecord?_eq_none htc hn
  have hbarred : counted.isBarred c = s1.isBarred c := isBarred_countAttempt c s1
  have hallow : counted.pacing.classes[c].allowance = s1.pacing.classes[c].allowance := allowance_countAttempt c s1
  have answer : ∀ {r : ResultCode} {bs : List Byte}, e.kind ≠ .unused →
      admitChecked p a c e counted = answered counted r bs → refused r bs :=
    fun hk hr => exec_admitCall_answered h ((runAdmit_used hc hk).trans hr)
  refine ⟨fun hk => ?unusedClass, fun hk id r hr hl ho hf => ?duplicate, fun hk hn _ hb => ?barred,
    fun hk hn hb hz => ?paced, fun hk hn hb hp hr => ?tableFull, fun hpass hplace hvictims => ⟨?listFull, ?congested⟩⟩
  case unusedClass => exact exec_admitCall_answered h (runAdmit_unused hc hk)
  case duplicate => exact answer hk (admitChecked_duplicate (liveRecord?_eq_some htc hr hl ho hf))
  case barred =>
    refine answer hk ?_
    rw [admitChecked_barred (hnone hn) (hbarred.trans hb)]
    exact congrArg (fun fs => answered counted .barred [flagsByte fs]) (barFlags_countAttempt c s1)
  case paced =>
    have hused : e.kind ≠ .unused := by rw [hk]; decide
    exact answer hused (admitChecked_paced (hnone hn) (hbarred.trans hb) hk (hallow.trans hz))
  case tableFull =>
    have hpaced : ¬ (e.kind = .general ∧ counted.pacing.classes[c].allowance = 0) := by
      rw [hallow]
      rintro ⟨hg, hz⟩
      exact Nat.ne_of_gt (hp hg) hz
    exact answer hk (admitChecked_tableFull (hnone hn) (hbarred.trans hb) hpaced (hasRecordFor_eq_false hr))
  case listFull =>
    intro hm hw hcount
    exact exec_admitCall_answered h
      ((runAdmit_waits hc ht hpass hplace hvictims).trans (admitWaitOrRefuse_listFull hm hw hcount))
  case congested =>
    intro hm blocked hb
    have hblocked : s1.isBlocked e.level = blocked := Bool.eq_iff_iff.2 ((isBlocked_iff ht).trans hb.symm)
    refine exec_admitCall_answered h ((runAdmit_waits hc ht hpass hplace hvictims).trans ?_)
    rw [hblocked]
    exact admitWaitOrRefuse_congested hm

/-! The records that an ADMIT makes (R52, R54, R56). -/

theorem freeRecords_pos {s : State} {p : Port} {a : AdmitArgs} {c : ClassId} (h : PassesChecks s p a c) :
    1 ≤ s.freeRecords := by
  have hroom := h.room
  split at hroom
  · exact Nat.le_trans (by decide) hroom
  · exact hroom

/-- A direct admission (R52) over the named operations, with the answer read from the state before it. -/
theorem admitDirectly_eq (p : Port) (ref : Half) (c : ClassId) (e : ClassEntry) (s : State) :
    admitDirectly p ref c e s =
      let holding := newRecord p ref c e (.holding (if e.continuous then .continuous else .setup (e.hold * 100)))
      answered
        (evalExhausted (consume c e.kind { joinHoldings s.lowestFree (allocate s.lowestFree holding s) with
          pool.free := s.pool.free - e.u }))
        .admitted
        (numBytes2 s.lowestFree ++ [if e.continuous then 5 else 3, byteOf e.u] ++
          numBytes2 (if e.kind = .general then s.pacing.classes[c].allowance - 1 else 0)) := by
  have hcode : byteOf (newRecord p ref c e (.holding .sustain)).holdingState.code =
      if e.continuous then 5 else 3 := by
    cases hcont : e.continuous <;> simp [CallRecord.holdingState, newRecord, hcont, RecState.code, byteOf]
  have hleft : ∀ t : State, t.pacing = s.pacing →
      (if e.kind = .general then (evalExhausted (consume c e.kind t)).pacing.classes[c].allowance else 0) =
        if e.kind = .general then s.pacing.classes[c].allowance - 1 else 0 := by
    intro t ht
    split
    · next hk => rw [(Untouched.evalExhausted _).pacing, hk, consume_allowance, ht]
    · rfl
  have hbytes : ∀ {x y : Byte} {m n : Nat}, x = y → m = n →
      numBytes2 s.lowestFree ++ [x, byteOf e.u] ++ numBytes2 m =
        numBytes2 s.lowestFree ++ [y, byteOf e.u] ++ numBytes2 n := by
    rintro _ _ _ _ rfl rfl
    rfl
  exact congrArg (answered _ .admitted) (hbytes hcode (hleft _ rfl))

/-- Settles O8: the record is the lowest FREE one, and step 7 makes the state of `admitDirectly_eq`. -/
theorem admitTakesFreeUnitsDirectly : Obligations.AdmitTakesFreeUnitsDirectly := by
  intro s s1 p tag a c h hc ht hpass e hb hf
  obtain ⟨hlt, hfree, hlow⟩ := lowestFree_spec ht (freeRecords_pos hpass)
  refine ⟨s1.lowestFree, hlt, hfree, hlow, ?_⟩
  refine exec_admitCall_answered h ((runAdmit_direct hc ht hpass hb hf).trans ?_)
  rw [admitDirectly_eq, allowance_countAttempt]
  rfl

theorem takeSlot_empty {id : RecId} {s : State} {i : Fin 8} (h : s.emptySlot? = some i) :
    takeSlot id s = { s with slots := s.slots.set i (some id) } := by
  simp only [takeSlot, h]

/-- The making of a collector in an empty slot (R95). -/
theorem makeCollector_empty (id : RecId) (r : CallRecord) (w : WaitFields) (victims : List RecId) {s : State}
    {i : Fin 8} (h : s.emptySlot? = some i) :
    makeCollector id r w victims s =
      evalExhausted (makeVictims id victims { s.setRec id { r with state := .collecting w s.pool.free victims } with
        slots := s.slots.set i (some id)
        pool := { s.pool with free := 0, collected := s.pool.collected + s.pool.free } }) := by
  have hstored : ∀ x : CallRecord, (s.setRec id x).emptySlot? = some i := fun _ => h
  dsimp only [makeCollector]
  rw [takeSlot_empty (hstored _)]
  rfl

/-- A record that is stored again before anything has read it is the one that was allocated. -/
theorem setRec_joinWait_allocate (id : RecId) (l : Level) {r x : CallRecord} (s : State) (h : r.cls = x.cls) :
    (joinWait id l (allocate id r s)).setRec id x = joinWait id l (allocate id x s) := by
  simp [State.setRec, joinWait, allocate, setClassCount, putRec_putRec, h]

/-- A pre-emption that an ADMIT starts (R54, R95) over the named operations. -/
theorem admitCollecting_eq (p : Port) (ref : Half) (c : ClassId) (e : ClassEntry) (victims : List RecId) {s : State}
    {slot : Fin 8} (hslot : s.emptySlot? = some slot) :
    admitCollecting p ref c e victims s =
      let id := s.lowestFree
      let w := newWait s c e.u
      let collector := newRecord p ref c e (.collecting w s.pool.free victims)
      answered
        (evalExhausted (makeVictims id victims { joinWait id e.level (allocate id collector s) with
          slots := s.slots.set slot (some id)
          pool := { s.pool with free := 0, collected := s.pool.collected + s.pool.free } }))
        .collecting
        (numBytes2 id ++ [byteOf w.need, byteOf s.pool.free, byteOf victims.length] ++ numBytes2 w.deadline) := by
  have hjoined : ∀ x : CallRecord,
      (joinWait s.lowestFree e.level (allocate s.lowestFree x s)).emptySlot? = some slot := fun _ => hslot
  dsimp only [admitCollecting]
  rw [makeCollector_empty _ _ _ _ (hjoined _), setRec_joinWait_allocate _ _ _ (by rfl)]
  rfl

/-- Settles O9: the record is the lowest FREE one, and step 8 makes the state of `admitCollecting_eq`. -/
theorem admitStartsPreemption : Obligations.AdmitStartsPreemption := by
  intro s s1 p tag a c victims slot h hc ht hpass e hb hf hcap hw hslot hv
  obtain ⟨hlt, hfree, hlow⟩ := lowestFree_spec ht (freeRecords_pos hpass)
  refine ⟨s1.lowestFree, hlt, hfree, hlow, ?_⟩
  refine exec_admitCall_answered h ((runAdmit_collects hc ht hpass hb hf (isCapable_iff.2 hcap) hw hv).trans ?_)
  exact admitCollecting_eq p a.ref c e victims (s := countAttempt c s1) hslot

/-! The records ahead (R59). -/

/-- A WAITING record of level `l` or of a more urgent one has this id. -/
def isAhead (s : State) (l : Level) (id : RecId) : Bool :=
  (s.rec? id).any fun r => r.isWaiting && decide (r.level ≤ l)

theorem mem_flatten_levels {v : Vector (List RecId) 8} {id : RecId} :
    id ∈ v.toList.flatten ↔ ∃ l : Level, id ∈ v[l] := by
  simp only [List.mem_flatten, Vector.mem_toList_iff, Vector.mem_iff_getElem]
  constructor
  · rintro ⟨_, ⟨n, hn, rfl⟩, hm⟩
    exact ⟨⟨n, hn⟩, hm⟩
  · rintro ⟨l, hm⟩
    exact ⟨_, ⟨l.val, l.isLt, rfl⟩, hm⟩

/-- An id stands once in the level lists, since the record it names has one level (R64). -/
theorem nodup_flatten_levels {s : State} (ho : OrderBooks s) : s.wait.levels.toList.flatten.Nodup := by
  refine List.pairwise_flatten.2 ⟨fun ids hm => ?_, List.pairwise_iff_getElem.2 fun i j hi hj hij => ?_⟩
  · obtain ⟨n, hn, rfl⟩ := Vector.mem_iff_getElem.1 (Vector.mem_toList_iff.1 hm)
    exact ho.levelsOnce ⟨n, hn⟩
  · rw [Vector.length_toList] at hi hj
    rintro id hmi _ hmj rfl
    obtain ⟨r, hr, -, hri⟩ := (ho.levels ⟨i, hi⟩ id).1 hmi
    obtain ⟨x, hx, -, hxj⟩ := (ho.levels ⟨j, hj⟩ id).1 hmj
    have hrx : r = x := Option.some.inj (hr.symm.trans hx)
    exact Nat.ne_of_lt hij (congrArg Fin.val (hri.symm.trans ((congrArg CallRecord.level hrx).trans hxj)))

theorem nodup_ids {rs : List (RecId × CallRecord)} (h : idsRise rs = true) : (rs.map (·.1)).Nodup := by
  induction rs with
  | nil => exact List.nodup_nil
  | cons e rest ih =>
    refine List.nodup_cons.2 ⟨fun hm => ?_, ih (idsRise_tail h)⟩
    obtain ⟨f, hf, hid⟩ := List.mem_map.1 hm
    exact Nat.ne_of_gt (idsRise_lt h f hf) hid

/-- The records ahead are those of the table, whether counted along the level lists or along the ids. -/
theorem length_filter_isAhead {s : State} (ho : OrderBooks s) (l : Level) :
    (s.wait.levels.toList.flatten.filter (isAhead s l)).length =
      (s.table.records.filter fun x => x.2.isWaiting && decide (x.2.level ≤ l)).length := by
  have hperm : (s.wait.levels.toList.flatten.filter (isAhead s l)).Perm
      ((s.table.records.filter fun x => x.2.isWaiting && decide (x.2.level ≤ l)).map (·.1)) := by
    refine (List.perm_ext_iff_of_nodup ((nodup_flatten_levels ho).filter _)
      ((nodup_ids ho.idsRise).sublist (List.filter_sublist.map _))).2 fun id => ?_
    simp only [List.mem_filter, mem_flatten_levels, isAhead, Option.any_eq_true, List.mem_map, Prod.exists,
      ← State.rec?_eq_some ho.idsRise]
    constructor
    · rintro ⟨-, r, hr, hahead⟩
      exact ⟨id, r, ⟨hr, hahead⟩, rfl⟩
    · rintro ⟨_, r, ⟨hr, hahead⟩, rfl⟩
      have hwait : (r.isWaiting || r.isCollecting) = true := by
        rw [(Bool.and_eq_true_iff.1 hahead).1, Bool.true_or]
      exact ⟨⟨r.level, (ho.levels r.level _).2 ⟨r, hr, hwait, rfl⟩⟩, r, hr, hahead⟩
  rw [hperm.length_eq, List.length_map]

/-- An id that a filter leaves out may join a level list unseen. -/
theorem filter_flatten_join (v : Vector (List RecId) 8) (l : Level) {id : RecId} {q : RecId → Bool}
    (hq : q id = false) :
    (v.set l (v[l] ++ [id])).toList.flatten.filter q = v.toList.flatten.filter q := by
  have hlist : (v[l] ++ [id]).filter q = (v.toList.map (List.filter q))[l.val]'(by simp) := by
    simp [List.filter_append, hq]
  rw [List.filter_flatten, List.filter_flatten, Vector.toList_set, List.map_set, hlist, List.set_getElem_self]

/-- The records ahead of one that has just joined the wait list, read from the state before (R59). -/
theorem recordsAhead_joined {s t : State} {id : RecId} {l : Level} {r : CallRecord} (ho : OrderBooks s)
    (hfree : s.rec? id = none) (hrecords : t.table.records = putRec s.table.records id r)
    (hlevels : t.wait.levels = s.wait.levels.set l (s.wait.levels[l] ++ [id])) :
    recordsAhead id l t =
      (s.table.records.filter fun x => x.2.isWaiting && decide (x.2.level ≤ l)).length := by
  have hnew : isAhead s l id = false := by simp [isAhead, hfree]
  have hrec : ∀ i : RecId, i ≠ id → t.rec? i = s.rec? i := fun i hi =>
    (State.rec?_eq t (s.setRec id r) i hrecords).trans (State.rec?_setRec_other s id i r hi)
  calc recordsAhead id l t
      _ = (t.wait.levels.toList.flatten.filter (isAhead s l)).length := by
        unfold recordsAhead waitingOrder
        rw [List.filter_filter]
        refine congrArg List.length (List.filter_congr fun i _ => ?_)
        by_cases hi : i = id
        · simp [hi, hnew]
        · have hne : (i != id) = true := bne_iff_ne.2 hi
          rw [hrec i hi]
          cases hs : s.rec? i <;> simp [isAhead, hs, hne, Bool.and_comm]
      _ = (s.wait.levels.toList.flatten.filter (isAhead s l)).length := by
        rw [hlevels, filter_flatten_join _ _ hnew]
      _ = _ := length_filter_isAhead ho l

/-- Counting an attempt keeps the orders. -/
theorem orderBooks_countAttempt {s : State} (c : ClassId) (h : OrderBooks s) : OrderBooks (countAttempt c s) :=
  ⟨h.idsRise, h.holdings, h.holdingsOnce, h.arrival, h.arrivalOnce, h.levels, h.levelsOnce, h.count⟩

/-- The entering of the wait list (R56) over the named operations. -/
theorem admitWaiting_eq (p : Port) (ref : Half) (c : ClassId) (e : ClassEntry) {s : State} (ho : OrderBooks s) :
    admitWaiting p ref c e s =
      let id := s.lowestFree
      let w := newWait s c e.u
      answered (consume c e.kind (joinWait id e.level (allocate id (newRecord p ref c e (.waiting w)) s))) .waiting
        (numBytes2 id ++ [byteOf w.need] ++ numBytes2 w.deadline ++
          [byteOf (s.table.records.filter fun x => x.2.isWaiting && decide (x.2.level ≤ e.level)).length]) := by
  dsimp only [admitWaiting]
  obtain ⟨htable, hwait⟩ := consume_frame c e.kind (joinWait s.lowestFree e.level
    (allocate s.lowestFree (newRecord p ref c e (.waiting (newWait s c e.u))) s))
  rw [recordsAhead_joined ho (s.rec?_lowestFree ho.idsRise) (congrArg CallTable.records htable)
    (congrArg WaitList.levels hwait)]

/-- Settles O10: the record is the lowest FREE one, and step 9 makes the state of `admitWaiting_eq`, whose records ahead
are counted by `recordsAhead_joined`. -/
theorem admitEntersWaitList : Obligations.AdmitEntersWaitList := by
  intro s s1 p tag a c h hc ht ho hpass e hplace hvictims hm hn hw
  obtain ⟨hlt, hfree, hlow⟩ := lowestFree_spec ht (freeRecords_pos hpass)
  refine ⟨s1.lowestFree, hlt, hfree, hlow, ?_⟩
  have hnone : e.isCapable = false ∨ Blocks s1 e.level ∨ 128 ≤ s1.wait.count ∨ selectVictims s1 e.level e.u = none :=
    hvictims.imp_right (Or.imp_right .inr)
  refine exec_admitCall_answered h ((runAdmit_waits hc ht hpass hplace hnone).trans ?_)
  exact (admitWaitOrRefuse_enters (s := countAttempt c s1) hm hn hw).trans
    (admitWaiting_eq p a.ref c e (orderBooks_countAttempt c ho))

/-! Totality (R58, R143, R187). -/

/-- A request command answers a next state, whether the engine takes it or not. -/
theorem runRequest_next (p : Port) (tag : Byte) (q : Request) (run : State → Executed) (s : State) :
    ∃ t : State, runRequest p tag q run s = .next t := by
  cases h : engineTake p tag q s with
  | none => exact ⟨s, runRequest_idle h⟩
  | some s1 => exact ⟨_, runRequest_taken h⟩

/-- An event that changes the state where its condition stands, and nothing where it does not, answers a next state. -/
theorem ite_next {b : Prop} [Decidable b] {x y : Host.Outcome State Fault Refusal} (hx : ∃ t : State, x = .next t)
    (hy : ∃ t : State, y = .next t) : ∃ t : State, (if b then x else y) = .next t := by
  split
  · exact hx
  · exact hy

theorem execPortClear_next (p : Port) (tag : Byte) (s : State) : ∃ t : State, execPortClear p tag s = .next t := by
  unfold execPortClear
  split <;> exact ⟨_, rfl⟩

theorem execSecondBoundary_next (s : State) : ∃ t : State, execSecondBoundary s = .next t := by
  refine ite_next ⟨_, rfl⟩ ?_
  split <;> exact ⟨_, rfl⟩

theorem execSetupTimerExpiry_next (id : RecId) (s : State) : ∃ t : State, execSetupTimerExpiry id s = .next t := by
  refine ite_next ⟨_, rfl⟩ ?_
  split
  · exact ⟨_, rfl⟩
  · exact ite_next ⟨_, rfl⟩ ⟨_, rfl⟩

theorem execGraceExpiry_next (id : RecId) (s : State) : ∃ t : State, execGraceExpiry id s = .next t := by
  refine ite_next ⟨_, rfl⟩ ?_
  split
  · exact ⟨_, rfl⟩
  · split <;> exact ⟨_, rfl⟩

theorem execDeadlineExpiry_next (id : RecId) (s : State) : ∃ t : State, execDeadlineExpiry id s = .next t := by
  refine ite_next ⟨_, rfl⟩ ?_
  split
  · exact ⟨_, rfl⟩
  · exact ite_next ⟨_, rfl⟩ ⟨_, rfl⟩

/-- Settles O6: a request command by `runRequest_next`, and an event by the branches of its own meaning. -/
theorem noCommandStopsThePart : Obligations.NoCommandStopsThePart := by
  intro i s
  cases i with
  | admitCall | release | cancel | settle | query | fetchNotice | readEvents | setEnables | readPool | readClass
  | readStatus | barSet | barClear | rearm | writeClass | writeRates | writeThresholds | writeLimits
  | writeCapacity | selectProfile | writeWindow | writeWindowBars | readPolicy | setTime | readTime | readIdent
  | unknownRequestCode => exact runRequest_next _ _ _ _ s
  | portClear p tag => exact execPortClear_next p tag s
  | transactionStart | transactionEnd | portResetRelease | resetAssert | powerOnReset => exact ⟨_, rfl⟩
  | tick => exact ite_next ⟨_, rfl⟩ ⟨_, rfl⟩
  | portReset | portResetRecord | intervalBoundary | waitListBoundaryWork =>
    exact ite_next ⟨_, rfl⟩ (ite_next ⟨_, rfl⟩ ⟨_, rfl⟩)
  | setupTimerExpiry id => exact execSetupTimerExpiry_next id s
  | graceExpiry id => exact execGraceExpiry_next id s
  | deadlineExpiry id => exact execDeadlineExpiry_next id s
  | secondBoundary => exact execSecondBoundary_next s

end Sys2Proof.Machine.Admission
end

section
/-! PROOFS. The wait list (04_the_wait_list.md): a CANCEL of the record it names, the service run as its grants in
service order, the boundary retry as an equation per case, and the statements of chapter 4. -/

namespace Sys2Proof.Machine.Waiting

/-! Withdrawal (R75 to R77). -/

/-- A request that names a record of its own port by its id and reference finds it (R30). -/
theorem named_found {p : Port} {a : RecordArgs} {s : State} {r : CallRecord} (hid : a.id.toNat < 1024)
    (hr : s.rec? a.id.toNat = some r) (href : r.ref = a.ref) (hown : r.owner = p) :
    named p a s = .found a.id.toNat r := by
  have hrec : recordOf? a.id = some a.id.toNat := if_pos hid
  simp [named, hrec, hr, href, hown]

theorem exec_cancel_answered {s s1 t : State} {p : Port} {tag : Byte} {a : RecordArgs} {r : CallRecord}
    {c : ResultCode} {bs : List Byte} (h : engineTake p tag (.cancel a) s = some s1)
    (hn : named p a s1 = .found a.id.toNat r) (hc : cancelFound a.id.toNat r s1 = answered t c bs) :
    exec (.cancel p tag a) s = .next (t.respond p c bs) := by
  have hrun : runCancel p a s1 = answered t c bs := by simp only [runCancel, hn, hc]
  have hexec : exec (.cancel p tag a) s = runRequest p tag (.cancel a) (runCancel p a) s := rfl
  rw [hexec, runRequest_taken h, hrun]
  rfl

section
variable {id : RecId} {r : CallRecord} {s : State}

theorem cancelFound_waiting {w : WaitFields} (h : r.state = .waiting w) :
    cancelFound id r s = answered (freeRecord id s) .done (numBytes2 id ++ [0]) := by
  simp only [cancelFound, withdrawRecord, h]
  rfl

theorem cancelFound_collecting {w : WaitFields} {n : Nat} {vs : List RecId} (h : r.state = .collecting w n vs) :
    cancelFound id r s =
      answered (distribute none n (freeRecord id (endCollecting id r n vs s))) .done (numBytes2 id ++ [byteOf n]) := by
  simp only [cancelFound, withdrawRecord, h]
  rfl

theorem cancelFound_expired (h : r.state = .expired) :
    cancelFound id r s = answered (freeRecord id s) .late (numBytes2 id ++ [0]) := by
  simp only [cancelFound, h]
  rfl

end

/-- Settles O14: the record named is found, and each state in which it may be cancelled has its own equation. -/
theorem cancelWithdrawsTheRecord : Obligations.CancelWithdrawsTheRecord := by
  intro s s1 p tag a r h hid hr href hown
  have hn := named_found hid hr href hown
  refine ⟨fun w hw => ?_, fun w n vs hc => ?_, fun he => ?_⟩
  · exact exec_cancel_answered h hn (cancelFound_waiting hw)
  · exact exec_cancel_answered h hn (cancelFound_collecting hc)
  · exact exec_cancel_answered h hn (cancelFound_expired he)

/-! Postings: the blocks that a notice leaves alone (R166). -/

@[simp] theorem postNotice_pool (id : RecId) (k : NoticeKind) (s : State) : (postNotice id k s).pool = s.pool := by
  rcases postNotice_cases id k s with h | ⟨r, -, h⟩ | ⟨r, -, -, h⟩ <;> rw [h] <;> rfl

@[simp] theorem postNotice_wait (id : RecId) (k : NoticeKind) (s : State) : (postNotice id k s).wait = s.wait := by
  rcases postNotice_cases id k s with h | ⟨r, -, h⟩ | ⟨r, -, -, h⟩ <;> rw [h] <;> rfl

theorem postNotice_rec?_other {id j : RecId} (k : NoticeKind) (s : State) (h : j ≠ id) :
    (postNotice id k s).rec? j = s.rec? j := by
  rcases postNotice_cases id k s with e | ⟨r, -, e⟩ | ⟨r, -, -, e⟩ <;> rw [e]
  · exact State.rec?_setRec_other s id j _ h
  · exact State.rec?_setRec_other s id j _ h

theorem postNotice_rec?_self {id : RecId} {k : NoticeKind} {s : State} {r : CallRecord} (h : s.rec? id = some r) :
    ∃ m : Option NoticeKind, (postNotice id k s).rec? id = some { r with notice := m } := by
  rcases postNotice_cases id k s with e | ⟨x, hx, e⟩ | ⟨x, hx, -, e⟩ <;> rw [e]
  · exact ⟨r.notice, h⟩
  · obtain rfl : r = x := Option.some.inj (h.symm.trans hx)
    exact ⟨some k, State.rec?_setRec_self s id _⟩
  · obtain rfl : r = x := Option.some.inj (h.symm.trans hx)
    exact ⟨some k, State.rec?_setRec_self s id _⟩

/-! Service order (R64). -/

/-- The record with this id is WAITING. -/
def waits (s : State) (id : RecId) : Bool := (s.rec? id).any (·.isWaiting)

theorem waits_waiting {s : State} {id : RecId} {r : CallRecord} {w : WaitFields} (hr : s.rec? id = some r)
    (hw : r.state = .waiting w) : waits s id = true := by
  simp [waits, hr, CallRecord.isWaiting, hw]

theorem waitingOrder_eq (s : State) : waitingOrder s = s.wait.levels.toList.flatten.filter (waits s) := by
  refine List.filter_congr fun id _ => ?_
  cases h : s.rec? id <;> simp [waits, h]

/-- A record stands once in service order. -/
theorem nodup_waitingOrder {s : State} (ho : OrderBooks s) : (waitingOrder s).Nodup := by
  rw [waitingOrder_eq]
  exact (Admission.nodup_flatten_levels ho).filter _

/-- An id that a filter leaves out may leave a level list unseen. -/
theorem filter_flatten_leave (v : Vector (List RecId) 8) (l : Level) {id : RecId} {q : RecId → Bool}
    (hq : q id = false) :
    (v.set l (v[l].filter (· != id))).toList.flatten.filter q = v.toList.flatten.filter q := by
  have hleft : (v[l].filter (· != id)).filter q = v[l].filter q := by
    rw [List.filter_filter]
    refine List.filter_congr fun i _ => ?_
    by_cases hi : i = id
    · simp [hi, hq]
    · simp [hi]
  have hlist : (v[l].filter (· != id)).filter q = (v.toList.map (List.filter q))[l.val]'(by simp) := by
    rw [hleft]
    simp
  rw [List.filter_flatten, List.filter_flatten, Vector.toList_set, List.map_set, hlist, List.set_getElem_self]

/-- Where one record leaves its level list and WAITING, and every other record waits on as before, service order loses
that record alone. -/
theorem waitingOrder_leave {s t : State} {id : RecId} {l : Level}
    (hlevels : t.wait.levels = s.wait.levels.set l (s.wait.levels[l].filter (· != id))) (hid : waits t id = false)
    (hother : ∀ j : RecId, j ≠ id → t.rec? j = s.rec? j) :
    waitingOrder t = (waitingOrder s).filter (· != id) := by
  rw [waitingOrder_eq, waitingOrder_eq, hlevels, filter_flatten_leave _ _ hid, List.filter_filter]
  refine List.filter_congr fun j _ => ?_
  by_cases hj : j = id
  · simp [hj, hid]
  · simp [waits, hother j hj, hj]

/-! A grant (R69). -/

section
variable {id : RecId} {s : State} {r : CallRecord} {w : WaitFields}

/-- A grant over the fields of the state. -/
theorem grant_eq (hr : s.rec? id = some r) (hw : r.state = .waiting w) :
    grant id s = postNotice id .granted ({ s with
      pool.free := s.pool.free - w.need
      table.records := putRec s.table.records id { r with
        state := .holding (if r.continuous then .continuous else .setup (r.hold * 100)) }
      table.holdings := s.table.holdings ++ [id]
      wait.levels := s.wait.levels.set r.level (s.wait.levels[r.level].filter (· != id))
      wait.arrival := s.wait.arrival.filter (· != id)
      wait.count := s.wait.count - 1 }) :=
  grant_waiting hr hw

theorem grant_levels (hr : s.rec? id = some r) (hw : r.state = .waiting w) :
    (grant id s).wait.levels = s.wait.levels.set r.level (s.wait.levels[r.level].filter (· != id)) := by
  rw [grant_eq hr hw, postNotice_wait]

theorem grant_rec?_other {j : RecId} (hr : s.rec? id = some r) (hw : r.state = .waiting w) (h : j ≠ id) :
    (grant id s).rec? j = s.rec? j := by
  rw [grant_eq hr hw, postNotice_rec?_other _ _ h]
  exact findRec_putRec_other s.table.records id j _ h

theorem becomeHolding_rec?_self (id : RecId) (r : CallRecord) (s : State) :
    (becomeHolding id r s).rec? id = some { r with state := r.holdingState } :=
  findRec_putRec_self _ _ _

/-- The record granted waits no longer. -/
theorem waits_grant_self (hr : s.rec? id = some r) (hw : r.state = .waiting w) : waits (grant id s) id = false := by
  rw [grant_waiting hr hw]
  obtain ⟨m, hm⟩ := postNotice_rec?_self (k := .granted)
    (becomeHolding_rec?_self id r { s with pool.free := s.pool.free - w.need })
  simp [waits, hm, CallRecord.isWaiting, CallRecord.holdingState]

/-- After the grant of the first record of service order the rest of that order stands (R68). -/
theorem waitingOrder_grant {rest : List RecId} (ho : OrderBooks s) (hfirst : waitingOrder s = id :: rest)
    (hr : s.rec? id = some r) (hw : r.state = .waiting w) : waitingOrder (grant id s) = rest := by
  have hnodup := nodup_waitingOrder ho
  rw [hfirst, List.nodup_cons] at hnodup
  have hrest : ∀ j ∈ rest, (j != id) = true := fun j hj => bne_iff_ne.2 fun e => hnodup.1 (e ▸ hj)
  rw [waitingOrder_leave (grant_levels hr hw) (waits_grant_self hr hw) fun j => grant_rec?_other hr hw, hfirst]
  simpa using List.filter_eq_self.2 hrest

end

/-! The service run (R67, R68). -/

theorem servable_waiting {id : RecId} {s : State} {r : CallRecord} {w : WaitFields} (hr : s.rec? id = some r)
    (hw : r.state = .waiting w) : servable id s = fits r.kind w.need s.pool := by
  simp [servable, hr, hw]

theorem service_eq {s : State} (h : 0 < s.pool.free) : service s = serveList (waitingOrder s) s :=
  if_pos h

/-- The need of a WAITING record is at least 1 (R65). -/
theorem need_pos {s : State} {id : RecId} {r : CallRecord} {w : WaitFields} (hp : PoolBooks s)
    (hr : s.rec? id = some r) (hw : r.state = .waiting w) : 1 ≤ w.need := by
  have hagree := List.all_eq_true.1 hp.agree _ ((State.rec?_eq_some hp.idsRise id r).1 hr)
  simp only [CallRecord.unitsAgree, hw, Bool.and_eq_true, decide_eq_true_eq, beq_iff_eq] at hagree
  omega

/-- With nothing free no record that needs a unit is servable, so the rest of a run ends at once. -/
theorem serveList_idle {ids : List RecId} {s : State} (hfree : s.pool.free = 0)
    (hneed : ∀ id ∈ ids, ∀ (r : CallRecord) (w : WaitFields), s.rec? id = some r → r.state = .waiting w → 1 ≤ w.need) :
    serveList ids s = s := by
  cases ids with
  | nil => rfl
  | cons id rest =>
    refine serveList_stop (Bool.eq_false_iff.2 fun hs => ?_)
    obtain ⟨r, w, hr, hw, hfits⟩ := servable_iff.1 hs
    have hle := fits_le hfits
    have hpos := hneed id (by simp) r w hr hw
    omega

/-- The run from a record that fits is the run that begins again after its grant: with units left they go through the
same list, and with none left neither grants more. -/
theorem service_grant {s : State} {id : RecId} {rest : List RecId} {r : CallRecord} {w : WaitFields}
    (ho : OrderBooks s) (hp : PoolBooks s) (hfree : 0 < s.pool.free) (hfirst : waitingOrder s = id :: rest)
    (hr : s.rec? id = some r) (hw : r.state = .waiting w) (hfits : fits r.kind w.need s.pool = true) :
    service s = service (grant id s) := by
  have horder := waitingOrder_grant ho hfirst hr hw
  have hgo : service s = serveList rest (grant id s) := by
    rw [service_eq hfree, hfirst]
    exact serveList_go ((servable_waiting hr hw).trans hfits)
  rw [hgo]
  rcases Nat.eq_zero_or_pos (grant id s).pool.free with hzero | hpos
  · rw [service_idle hzero]
    refine serveList_idle hzero fun j hj x v hx hv => ?_
    have hne : j ≠ id := by
      rintro rfl
      have hnot := waits_grant_self hr hw
      rw [waits_waiting hx hv] at hnot
      exact Bool.noConfusion hnot
    rw [grant_rec?_other hr hw hne] at hx
    exact need_pos hp hx hv
  · rw [service_eq hpos, horder]

/-- Settles O20: the two ends of a run, and a grant by `service_grant`, `waitingOrder_grant` and `grant_eq`. -/
theorem serviceGrantsInOrderUntilMisfit : Obligations.ServiceGrantsInOrderUntilMisfit := by
  intro s ho hp
  refine ⟨?_, fun id rest r w hfree hfirst hr hw => ⟨fun hmisfit => ?_, fun hfits => ?_⟩⟩
  · rintro (hzero | hnone)
    · exact service_idle hzero
    · simp [service, hnone, serveList]
  · rw [service_eq hfree, hfirst]
    exact serveList_stop ((servable_waiting hr hw).trans hmisfit)
  · exact ⟨service_grant ho hp hfree hfirst hr hw hfits, waitingOrder_grant ho hfirst hr hw, grant_eq hr hw⟩

/-! A collector's making: what it does to the pool and the wait list (R95). -/

theorem makeVictim_pool_wait (c id : RecId) (s : State) :
    (makeVictim c id s).pool = s.pool ∧ (makeVictim c id s).wait = s.wait := by
  by_cases h : ∃ r h', s.rec? id = some r ∧ r.state = .holding h'
  · obtain ⟨r, h', hr, hs⟩ := h
    rw [makeVictim_holding hr hs]
    simp
  · have hother : ∀ r h', s.rec? id = some r → r.state ≠ .holding h' := fun r h' hr hs => h ⟨r, h', hr, hs⟩
    rw [makeVictim_other hother]
    exact ⟨rfl, rfl⟩

theorem makeVictims_pool_wait (c : RecId) (ids : List RecId) (s : State) :
    (makeVictims c ids s).pool = s.pool ∧ (makeVictims c ids s).wait = s.wait := by
  induction ids generalizing s with
  | nil => exact ⟨rfl, rfl⟩
  | cons id rest ih =>
    obtain ⟨hpool, hwait⟩ := makeVictim_pool_wait c id s
    obtain ⟨hpools, hwaits⟩ := ih (makeVictim c id s)
    exact ⟨hpools.trans hpool, hwaits.trans hwait⟩

theorem takeSlot_pool_wait (id : RecId) (s : State) :
    (takeSlot id s).pool = s.pool ∧ (takeSlot id s).wait = s.wait := by
  unfold takeSlot
  split <;> exact ⟨rfl, rfl⟩

theorem setExhausted_pool_wait (now : Bool) (s : State) :
    (setExhausted now s).pool = { s.pool with exhausted := now } ∧ (setExhausted now s).wait = s.wait := by
  unfold setExhausted
  split
  · next h => subst h; exact ⟨rfl, rfl⟩
  · dsimp only
    split <;> exact ⟨rfl, rfl⟩

/-- An evaluation of EXHAUSTED moves no unit. -/
theorem evalExhausted_pool_wait (s : State) :
    (∃ b : Bool, (evalExhausted s).pool = { s.pool with exhausted := b }) ∧ (evalExhausted s).wait = s.wait := by
  obtain ⟨hpool, hwait⟩ := setExhausted_pool_wait
    (if s.pool.exhausted then decide (s.pool.free < 2 * s.activeLimits.exhaust)
      else decide (s.pool.free < s.activeLimits.exhaust)) s
  exact ⟨⟨_, hpool⟩, hwait⟩

/-- A new collector takes every free unit, and the wait list keeps its place (R3, R95). -/
theorem makeCollector_pool_wait (id : RecId) (r : CallRecord) (w : WaitFields) (vs : List RecId) (s : State) :
    (∃ b : Bool, (makeCollector id r w vs s).pool =
      { s.pool with free := 0, collected := s.pool.collected + s.pool.free, exhausted := b }) ∧
    (makeCollector id r w vs s).wait = s.wait := by
  unfold makeCollector
  dsimp only
  obtain ⟨hslot, hslotWait⟩ := takeSlot_pool_wait id (s.setRec id { r with state := .collecting w s.pool.free vs })
  generalize takeSlot id (s.setRec id { r with state := .collecting w s.pool.free vs }) = s1 at hslot hslotWait ⊢
  obtain ⟨hvictims, hvictimsWait⟩ := makeVictims_pool_wait id vs
    { s1 with pool.free := 0, pool.collected := s1.pool.collected + s.pool.free }
  obtain ⟨⟨b, hpool⟩, hwait⟩ := evalExhausted_pool_wait (makeVictims id vs
    { s1 with pool.free := 0, pool.collected := s1.pool.collected + s.pool.free })
  refine ⟨⟨b, ?_⟩, hwait.trans (hvictimsWait.trans hslotWait)⟩
  rw [hpool, hvictims, hslot]
  rfl

/-! The boundary retry (R80, R81). -/

theorem retryCapable_iff {s : State} {r : CallRecord} :
    retryCapable s r = true ↔ r.kind = .emergency ∨ r.kind = .priority ∧ s.policy.classes[r.cls].preempt = true := by
  unfold retryCapable
  split <;> simp [*]

section
variable {id : RecId} {s : State} {r : CallRecord} {w : WaitFields}

theorem retryList_other (rest : List RecId) (h : ∀ x, s.rec? id = some x → x.isWaiting = false) :
    retryList (id :: rest) s = retryList rest s := by
  rw [retryList]
  split
  · rfl
  · next x hx =>
    have hno := h x hx
    split
    · next v hv => simp [CallRecord.isWaiting, hv] at hno
    · rfl

theorem retryList_pass (rest : List RecId) (hr : s.rec? id = some r) (hw : r.state = .waiting w)
    (hc : retryCapable s r = false) : retryList (id :: rest) s = retryList rest s := by
  simp [retryList, hr, hw, hc]

theorem retryList_stop (rest : List RecId) (hr : s.rec? id = some r) (hw : r.state = .waiting w)
    (hc : retryCapable s r = true) (h : w.need ≤ s.pool.free ∨ selectVictims s r.level w.need = none) :
    retryList (id :: rest) s = s := by
  by_cases hfits : w.need ≤ s.pool.free
  · simp [retryList, hr, hw, hc, hfits]
  · simp [retryList, hr, hw, hc, hfits, h.resolve_left hfits]

theorem retryList_collect {vs : List RecId} (rest : List RecId) (hr : s.rec? id = some r) (hw : r.state = .waiting w)
    (hc : retryCapable s r = true) (hshort : s.pool.free < w.need)
    (hv : selectVictims s r.level w.need = some vs) :
    retryList (id :: rest) s = retryList rest (makeCollector id r w vs s) := by
  simp [retryList, hr, hw, hc, hv, Nat.not_le.2 hshort]

end

/-- All that a retry can do with one record: pass over it, end there, or make a collector of it. -/
theorem retryList_cases (id : RecId) (rest : List RecId) (s : State) :
    retryList (id :: rest) s = retryList rest s ∨ retryList (id :: rest) s = s ∨
    ∃ (r : CallRecord) (w : WaitFields) (vs : List RecId),
      s.rec? id = some r ∧ r.state = .waiting w ∧ retryCapable s r = true ∧ s.pool.free < w.need ∧
      selectVictims s r.level w.need = some vs ∧
      retryList (id :: rest) s = retryList rest (makeCollector id r w vs s) := by
  by_cases hwaits : ∃ r w, s.rec? id = some r ∧ r.state = .waiting w
  · obtain ⟨r, w, hr, hw⟩ := hwaits
    cases hc : retryCapable s r with
    | false => exact .inl (retryList_pass rest hr hw hc)
    | true =>
      rcases Nat.lt_or_ge s.pool.free w.need with hshort | hfits
      · cases hv : selectVictims s r.level w.need with
        | none => exact .inr (.inl (retryList_stop rest hr hw hc (.inr hv)))
        | some vs => exact .inr (.inr ⟨r, w, vs, hr, hw, hc, hshort, hv, retryList_collect rest hr hw hc hshort hv⟩)
      · exact .inr (.inl (retryList_stop rest hr hw hc (.inl hfits)))
  · refine .inl (retryList_other rest fun x hx => ?_)
    cases hst : x.state with
    | waiting v => exact absurd ⟨x, v, hx, hst⟩ hwaits
    | collecting | holding | preemptPending | reclaimed | expired => simp [CallRecord.isWaiting, hst]

/-- What the retry keeps of the pool and the wait list: it moves units from free to the collected total alone, and then
every free unit. -/
structure RetryKept (s t : State) : Prop where
  wait : t.wait = s.wait
  capacity : t.pool.capacity = s.pool.capacity
  units : t.pool.free + t.pool.collected = s.pool.free + s.pool.collected
  free : t.pool.free = s.pool.free ∨ t.pool.free = 0

theorem RetryKept.refl (s : State) : RetryKept s s := ⟨rfl, rfl, rfl, .inl rfl⟩

theorem RetryKept.trans {s t u : State} (h : RetryKept s t) (k : RetryKept t u) : RetryKept s u where
  wait := k.wait.trans h.wait
  capacity := k.capacity.trans h.capacity
  units := k.units.trans h.units
  free := k.free.elim (fun e => h.free.imp e.trans e.trans) .inr

theorem RetryKept.makeCollector (id : RecId) (r : CallRecord) (w : WaitFields) (vs : List RecId) (s : State) :
    RetryKept s (makeCollector id r w vs s) := by
  obtain ⟨⟨b, hpool⟩, hwait⟩ := makeCollector_pool_wait id r w vs s
  refine ⟨hwait, ?_, ?_, .inr ?_⟩ <;> rw [hpool]
  exact (Nat.zero_add _).trans (Nat.add_comm _ _)

theorem RetryKept.retryList (ids : List RecId) (s : State) : RetryKept s (retryList ids s) := by
  induction ids generalizing s with
  | nil => exact .refl s
  | cons id rest ih =>
    rcases retryList_cases id rest s with h | h | ⟨r, w, vs, -, -, -, -, -, h⟩ <;> rw [h]
    · exact ih s
    · exact .refl s
    · exact (RetryKept.makeCollector id r w vs s).trans (ih _)

/-! The boundary work (R79). -/

theorem exec_boundaryWork_idle {s : State} (h : s.resetLow = true ∨ s.wait.boundaryDue = false) :
    exec .waitListBoundaryWork s = .next s := by
  have hexec : exec .waitListBoundaryWork s = execWaitListBoundaryWork s := rfl
  rw [hexec, execWaitListBoundaryWork]
  rcases h with h | h <;> simp [h]

theorem exec_boundaryWork_due {s : State} (hl : s.resetLow = false) (hd : s.wait.boundaryDue = true) :
    exec .waitListBoundaryWork s = .next (boundaryWork s) := by
  have hexec : exec .waitListBoundaryWork s = execWaitListBoundaryWork s := rfl
  rw [hexec, execWaitListBoundaryWork]
  simp [hl, hd]

theorem boundaryService_eq (s : State) :
    boundaryService s = if s.pool.free = 0 then s else evalExhausted (service s) := by
  unfold boundaryService
  by_cases h : s.pool.free = 0
  · simp [h]
  · simp [h, Nat.pos_of_ne_zero h]

/-- Settles O45: the order of R79, the four cases of a retry, and what a whole retry keeps by induction over its
list. -/
theorem boundaryWorkServesRetriesThenTests : Obligations.BoundaryWorkServesRetriesThenTests := by
  refine ⟨fun s => ⟨exec_boundaryWork_idle, fun hl hd => ?_⟩, fun s id rest r w hr hw => ?_, fun s ids => ?_⟩
  · rw [exec_boundaryWork_due hl hd, boundaryWork, boundaryService_eq]
  · refine ⟨rfl, fun hno => ?_, fun hc => ?_, fun vs hc => ?_⟩
    · exact retryList_pass rest hr hw (Bool.eq_false_iff.2 fun h => hno (retryCapable_iff.1 h))
    · exact retryList_stop rest hr hw (retryCapable_iff.2 hc)
    · exact retryList_collect rest hr hw (retryCapable_iff.2 hc)
  · obtain ⟨hwait, hcapacity, hunits, hfree⟩ := RetryKept.retryList ids s
    exact ⟨hwait, hcapacity, hunits, hfree, .retryList ids s⟩

end Sys2Proof.Machine.Waiting
end

section
/-! PROOFS. Pre-emption (05_pre_emption.md): the candidates and the walk of victim selection, the making of victims with
what it keeps, the grace and deadline expiries, and the statements of chapter 5. -/

namespace Sys2Proof.Machine.Preemption

/-! Candidates (R92, R93). -/

theorem isCandidate_iff {r : CallRecord} {l : Level} :
    r.isCandidate l = true ↔ ∃ h : HoldState, r.state = .holding h ∧ r.vulnerable = true ∧ l < r.level ∧
      r.unitsHeld = h.units r.u r.v ∧ 0 < h.units r.u r.v := by
  unfold CallRecord.isCandidate CallRecord.unitsHeld
  cases r.state <;> simp [and_assoc]

/-- What a holding of the order list gives to the candidates of one level. -/
def candidateAt? (s : State) (l lev : Level) (id : RecId) : Option (RecId × Nat) :=
  (s.rec? id).bind fun r => if r.level = lev ∧ r.isCandidate l = true then some (id, r.unitsHeld) else none

theorem candidatesAt_eq (s : State) (l lev : Level) :
    candidatesAt s l lev = s.table.holdings.reverse.filterMap (candidateAt? s l lev) := by
  refine congrArg (List.filterMap · s.table.holdings.reverse) (funext fun id => ?_)
  cases h : s.rec? id <;> simp [candidateAt?, h]

theorem candidateAt?_eq_some {s : State} {l lev : Level} {id : RecId} {e : RecId × Nat} :
    candidateAt? s l lev id = some e ↔
      ∃ r, s.rec? id = some r ∧ r.level = lev ∧ r.isCandidate l = true ∧ (id, r.unitsHeld) = e := by
  simp [candidateAt?, Option.bind_eq_some_iff, and_assoc]

theorem mem_candidatesAt {s : State} {l lev : Level} {e : RecId × Nat} :
    e ∈ candidatesAt s l lev ↔ e.1 ∈ s.table.holdings ∧
      ∃ r, s.rec? e.1 = some r ∧ r.level = lev ∧ r.isCandidate l = true ∧ e.2 = r.unitsHeld := by
  simp only [candidatesAt_eq, List.mem_filterMap, List.mem_reverse, candidateAt?_eq_some]
  constructor
  · rintro ⟨id, hm, r, hr, hl, hc, rfl⟩
    exact ⟨hm, r, hr, hl, hc, rfl⟩
  · rintro ⟨hm, r, hr, hl, hc, hu⟩
    exact ⟨e.1, hm, r, hr, hl, hc, Prod.ext rfl hu.symm⟩

theorem mem_candidates {s : State} {l : Level} {e : RecId × Nat} :
    e ∈ candidates s l ↔ ∃ lev : Level, e ∈ candidatesAt s l lev := by
  simp [candidates]

/-- The candidates are the holdings of R92, each with its units. -/
theorem mem_candidates_iff {s : State} {l : Level} {id : RecId} {units : Nat} :
    (id, units) ∈ candidates s l ↔ id ∈ s.table.holdings ∧ ∃ (r : CallRecord) (h : HoldState),
      s.rec? id = some r ∧ r.state = .holding h ∧ r.vulnerable = true ∧ l < r.level ∧ units = h.units r.u r.v ∧
        0 < units := by
  simp only [mem_candidates, mem_candidatesAt, isCandidate_iff]
  constructor
  · rintro ⟨_, hm, r, hr, rfl, ⟨h, hs, hv, hl, hu, hpos⟩, rfl⟩
    exact ⟨hm, r, h, hr, hs, hv, hl, hu, hu ▸ hpos⟩
  · rintro ⟨hm, r, h, hr, hs, hv, hl, rfl, hpos⟩
    have hu : r.unitsHeld = h.units r.u r.v := by simp [CallRecord.unitsHeld, hs]
    exact ⟨r.level, hm, r, hr, rfl, ⟨h, hs, hv, hl, hu, hpos⟩, hu.symm⟩

/-- In a list without repetition each entry stands at its own index. -/
theorem pairwise_idxOf_lt {ids : List RecId} (h : ids.Nodup) :
    ids.Pairwise fun a b => ids.idxOf a < ids.idxOf b := by
  refine List.pairwise_iff_getElem.2 fun i j hi hj hij => ?_
  rwa [h.idxOf_getElem i hi, h.idxOf_getElem j hj]

/-- Within a level the newest holding comes first (R93). -/
theorem candidatesAt_newest_first {s : State} (l lev : Level) (h : s.table.holdings.Nodup) :
    (candidatesAt s l lev).Pairwise fun a b => s.table.holdings.idxOf b.1 < s.table.holdings.idxOf a.1 := by
  rw [candidatesAt_eq, List.pairwise_filterMap, List.pairwise_reverse]
  refine (pairwise_idxOf_lt h).imp fun hlt a ha b hb => ?_
  obtain ⟨_, -, -, -, rfl⟩ := candidateAt?_eq_some.1 ha
  obtain ⟨_, -, -, -, rfl⟩ := candidateAt?_eq_some.1 hb
  exact hlt

/-- The record of a candidate of a level has that level. -/
theorem level_of_mem_candidatesAt {s : State} {l lev : Level} {e : RecId × Nat} {x : CallRecord}
    (h : e ∈ candidatesAt s l lev) (hx : s.rec? e.1 = some x) : x.level = lev := by
  obtain ⟨-, r, hr, hl, -, -⟩ := mem_candidatesAt.1 h
  obtain rfl : r = x := Option.some.inj (hr.symm.trans hx)
  exact hl

/-- The candidates stand by falling level number, and within a level newest first (R93). -/
theorem candidates_ordered {s : State} (l : Level) (h : s.table.holdings.Nodup) :
    (candidates s l).Pairwise fun a b => ∀ x y : CallRecord, s.rec? a.1 = some x → s.rec? b.1 = some y →
      y.level < x.level ∨ y.level = x.level ∧ s.table.holdings.idxOf b.1 < s.table.holdings.idxOf a.1 := by
  refine List.pairwise_flatMap.2 ⟨fun lev _ => ?_, List.pairwise_reverse.2 ?_⟩
  · refine (candidatesAt_newest_first l lev h).imp_of_mem fun ha hb hlt x y hx hy => .inr ⟨?_, hlt⟩
    exact (level_of_mem_candidatesAt hb hy).trans (level_of_mem_candidatesAt ha hx).symm
  · refine (List.pairwise_lt_finRange 8).imp fun hlt a ha b hb x y hx hy => .inl ?_
    rwa [level_of_mem_candidatesAt ha hx, level_of_mem_candidatesAt hb hy]

/-! The walk of selection (R91, R93). -/

theorem takeVictims_covered {sum need : Nat} (cands : List (RecId × Nat)) (room : Nat) (h : need ≤ sum) :
    takeVictims cands sum need room = some [] := by
  unfold takeVictims
  exact if_pos h

theorem takeVictims_none_left {sum need : Nat} (room : Nat) (h : ¬ need ≤ sum) :
    takeVictims [] sum need room = none := by
  simp [takeVictims, h]

theorem takeVictims_no_room {sum need : Nat} (e : RecId × Nat) (rest : List (RecId × Nat)) (h : ¬ need ≤ sum) :
    takeVictims (e :: rest) sum need 0 = none := by
  simp [takeVictims, h]

theorem takeVictims_next {sum need : Nat} (e : RecId × Nat) (rest : List (RecId × Nat)) (room : Nat)
    (h : ¬ need ≤ sum) :
    takeVictims (e :: rest) sum need (room + 1) = (takeVictims rest (sum + e.2) need room).map (e.1 :: ·) := by
  simp [takeVictims, h]

/-- With the sum before them the first `k` candidates cover the need, and no fewer of them do (R93). -/
def FewestCover (cands : List (RecId × Nat)) (sum need k : Nat) : Prop :=
  need ≤ sum + ((cands.take k).map (·.2)).sum ∧ (k ≠ 0 → sum + ((cands.take (k - 1)).map (·.2)).sum < need)

theorem fewestCover_zero {cands : List (RecId × Nat)} {sum need : Nat} :
    FewestCover cands sum need 0 ↔ need ≤ sum := by
  simp [FewestCover]

/-- Where the sum covers the need, no candidate is taken. -/
theorem fewestCover_covered {cands : List (RecId × Nat)} {sum need k : Nat} (h : need ≤ sum) :
    FewestCover cands sum need k ↔ k = 0 := by
  constructor
  · rintro ⟨-, hleast⟩
    refine Decidable.byContradiction fun hk => ?_
    exact Nat.not_lt.2 (Nat.le_trans h (Nat.le_add_right _ _)) (hleast hk)
  · rintro rfl
    exact fewestCover_zero.2 h

/-- Where it does not, the first candidate is taken and the walk goes on from the greater sum. -/
theorem fewestCover_succ {e : RecId × Nat} {rest : List (RecId × Nat)} {sum need k : Nat} (h : ¬ need ≤ sum) :
    FewestCover (e :: rest) sum need (k + 1) ↔ FewestCover rest (sum + e.2) need k := by
  cases k with
  | zero => simpa [FewestCover] using fun _ => Nat.not_le.1 h
  | succ k => simp [FewestCover, Nat.add_assoc]

/-- A walk whose sum covers the need takes no candidate. -/
theorem takeVictims_covered_iff {cands : List (RecId × Nat)} {sum need room : Nat} {vs : List RecId}
    (h : need ≤ sum) :
    takeVictims cands sum need room = some vs ↔
      ∃ k, k ≤ room ∧ k ≤ cands.length ∧ vs = (cands.take k).map (·.1) ∧ FewestCover cands sum need k := by
  rw [takeVictims_covered _ _ h, Option.some.injEq]
  constructor
  · rintro rfl
    exact ⟨0, Nat.zero_le _, Nat.zero_le _, rfl, fewestCover_zero.2 h⟩
  · rintro ⟨k, -, -, rfl, hcover⟩
    rw [(fewestCover_covered h).1 hcover]
    rfl

/-- The walk takes the fewest first candidates that cover the need, where `room` of them are enough. -/
theorem takeVictims_eq_some_iff {cands : List (RecId × Nat)} {sum need room : Nat} {vs : List RecId} :
    takeVictims cands sum need room = some vs ↔
      ∃ k, k ≤ room ∧ k ≤ cands.length ∧ vs = (cands.take k).map (·.1) ∧ FewestCover cands sum need k := by
  induction cands generalizing sum room vs with
  | nil =>
    by_cases hn : need ≤ sum
    · exact takeVictims_covered_iff hn
    · rw [takeVictims_none_left _ hn]
      refine iff_of_false (Option.some_ne_none vs).symm ?_
      rintro ⟨k, -, hlen, -, hcover⟩
      rw [Nat.le_zero.1 hlen] at hcover
      exact hn (fewestCover_zero.1 hcover)
  | cons e rest ih =>
    by_cases hn : need ≤ sum
    · exact takeVictims_covered_iff hn
    cases room with
    | zero =>
      rw [takeVictims_no_room _ _ hn]
      refine iff_of_false (Option.some_ne_none vs).symm ?_
      rintro ⟨k, hroom, -, -, hcover⟩
      rw [Nat.le_zero.1 hroom] at hcover
      exact hn (fewestCover_zero.1 hcover)
    | succ m =>
      simp only [takeVictims_next _ _ _ hn, Option.map_eq_some_iff, ih]
      constructor
      · rintro ⟨_, ⟨k, hroom, hlen, rfl, hcover⟩, rfl⟩
        exact ⟨k + 1, Nat.succ_le_succ hroom, Nat.succ_le_succ hlen, rfl, (fewestCover_succ hn).2 hcover⟩
      · rintro ⟨k, hroom, hlen, rfl, hcover⟩
        cases k with
        | zero => exact absurd (fewestCover_zero.1 hcover) hn
        | succ k =>
          exact ⟨_, ⟨k, Nat.le_of_succ_le_succ hroom, Nat.le_of_succ_le_succ hlen, rfl,
            (fewestCover_succ hn).1 hcover⟩, rfl⟩

theorem exists_emptySlot_iff {s : State} : (∃ i : Fin 8, s.slots[i] = none) ↔ ∃ i, s.emptySlot? = some i := by
  rw [← Option.isSome_iff_exists, State.emptySlot?, List.find?_isSome]
  simp

theorem selectVictims_empty {s : State} {i : Fin 8} (l : Level) (n : Nat) (h : s.emptySlot? = some i) :
    selectVictims s l n = takeVictims (candidates s l) s.pool.free n Config.victimLimit := by
  simp [selectVictims, h]

theorem selectVictims_eq_some_iff {s : State} {l : Level} {n : Nat} {vs : List RecId} :
    selectVictims s l n = some vs ↔ (∃ i : Fin 8, s.slots[i] = none) ∧
      takeVictims (candidates s l) s.pool.free n Config.victimLimit = some vs := by
  rw [exists_emptySlot_iff]
  cases h : s.emptySlot? with
  | none => simp [selectVictims_full l n h]
  | some i => simp [selectVictims_empty l n h]

/-- Settles O21: the candidates by `mem_candidates_iff` and `candidates_ordered`, and the walk over them by
`takeVictims_eq_some_iff`, which takes at least one since free does not cover the need. -/
theorem victimSelectionTakesFewestFirstCandidates : Obligations.VictimSelectionTakesFewestFirstCandidates := by
  intro s l n honce hshort cands
  refine ⟨fun _ _ => mem_candidates_iff, candidates_ordered l honce, fun vs => ?_⟩
  rw [selectVictims_eq_some_iff, takeVictims_eq_some_iff]
  refine and_congr_right fun _ => exists_congr fun k => ?_
  constructor
  · rintro ⟨hroom, hlen, hvs, hfewest⟩
    have hk : k ≠ 0 := by
      rintro rfl
      exact Nat.not_le.2 hshort (fewestCover_zero.1 hfewest)
    obtain ⟨hcover, hleast⟩ := hfewest
    exact ⟨Nat.one_le_iff_ne_zero.2 hk, hroom, hlen, hvs, hcover, hleast hk⟩
  · rintro ⟨-, hroom, hlen, hvs, hcover, hleast⟩
    exact ⟨hroom, hlen, hvs, hcover, fun _ => hleast⟩

/-! The books of notices under a stored record and a posting (R26, R165, R166, R172). -/

/-- A record carries a final notice exactly while it stands in the state of that name (R26). -/
def FinalAgrees (r : CallRecord) : Prop :=
  (r.state = .reclaimed ↔ r.notice = some .reclaimed) ∧ (r.state = .expired ↔ r.notice = some .expired)

theorem finalAgrees_setRec {s : State} {id j : RecId} {x y : CallRecord} (hb : NoticeBooks s) (hx : FinalAgrees x)
    (hy : (s.setRec id x).rec? j = some y) : FinalAgrees y := by
  by_cases hj : j = id
  · rw [hj, State.rec?_setRec_self] at hy
    exact Option.some.inj hy ▸ hx
  · rw [State.rec?_setRec_other _ _ _ _ hj] at hy
    exact hb.final j y hy

/-- A record with a notice pending may be stored again, with a notice, in the place of its owner's list that it has. -/
theorem noticeBooks_setRec {s : State} {id : RecId} {r x : CallRecord} (hb : NoticeBooks s) (hr : s.rec? id = some r)
    (howner : x.owner = r.owner) (hrn : r.notice ≠ none) (hxn : x.notice ≠ none) (hx : FinalAgrees x) :
    NoticeBooks (s.setRec id x) where
  idsRise := idsRise_putRec id x hb.idsRise
  lists p j := by
    rw [State.setRec_ports, hb.lists]
    by_cases hj : j = id
    · simp [hj, hr, howner, hrn, hxn]
    · rw [State.rec?_setRec_other _ _ _ _ hj]
  once := hb.once
  final _ _ hy := finalAgrees_setRec hb hx hy
  event := hb.event

/-- An id joins the list of one port alone (R166). -/
theorem notices_joined (s : State) (p q : Port) (id : RecId) :
    (s.updPort p (·.joinNotices id)).ports[q].notices =
      if q = p then s.ports[q].notices ++ [id] else s.ports[q].notices := by
  split
  · next hq => rw [hq, State.updPort_self, PortState.joinNotices]
  · next hq => rw [State.updPort_other _ _ _ _ hq]

/-- A record without a notice may be stored again with one when its id joins its owner's list. -/
theorem noticeBooks_setRec_join {s : State} {id : RecId} {r x : CallRecord} (hb : NoticeBooks s)
    (hr : s.rec? id = some r) (hrn : r.notice = none) (hxn : x.notice ≠ none) (hx : FinalAgrees x) :
    NoticeBooks ((s.setRec id x).updPort x.owner (·.joinNotices id)) := by
  have hout : ∀ p : Port, id ∉ s.ports[p].notices := fun p hm => by
    obtain ⟨y, hy, -, hn⟩ := (hb.lists p id).1 hm
    obtain rfl : r = y := Option.some.inj (hr.symm.trans hy)
    exact hn hrn
  have hrec : ∀ j, ((s.setRec id x).updPort x.owner (·.joinNotices id)).rec? j = (s.setRec id x).rec? j :=
    fun _ => rfl
  refine ⟨idsRise_putRec id x hb.idsRise, fun p j => ?lists, fun p => ?once,
    fun _ _ hy => finalAgrees_setRec hb hx hy, fun p => ?event⟩
  case lists =>
    rw [hrec, notices_joined]
    by_cases hj : j = id
    · rw [hj, State.rec?_setRec_self]
      by_cases hp : p = x.owner
      · simp [hp, hxn]
      · simpa [hp, Ne.symm hp] using hout p
    · rw [State.rec?_setRec_other _ _ _ _ hj, ← hb.lists]
      by_cases hp : p = x.owner <;> simp [hp, hj]
  case once =>
    rw [notices_joined]
    split
    · refine List.nodup_append.2 ⟨hb.once p, List.pairwise_singleton _ _, fun j hj k hk e => hout p ?_⟩
      rwa [← List.mem_singleton.1 hk, ← e]
    · exact hb.once p
  case event =>
    by_cases hp : p = x.owner
    · rw [hp, State.updPort_self]
      simp [PortState.joinNotices, Event.bit, Event.num]
    · rw [State.updPort_other _ _ _ _ hp]
      exact hb.event p

/-- A posting to a record that has just been stored stores it once (R166). -/
theorem postNotice_setRec_new {id : RecId} {x : CallRecord} (k : NoticeKind) (s : State) (hn : x.notice = none) :
    postNotice id k (s.setRec id x) =
      (s.setRec id { x with notice := some k }).updPort x.owner (·.joinNotices id) := by
  rw [postNotice_new k (State.rec?_setRec_self s id x) hn]
  simp only [State.setRec, Admission.putRec_putRec]

theorem postNotice_setRec_replace {id : RecId} {x : CallRecord} {old : NoticeKind} (k : NoticeKind) (s : State)
    (hn : x.notice = some old) (hf : old.final = false) :
    postNotice id k (s.setRec id x) = s.setRec id { x with notice := some k } := by
  rw [postNotice_replace k (State.rec?_setRec_self s id x) hn hf]
  simp only [State.setRec, Admission.putRec_putRec]

/-! One victim (R96). -/

section
variable {c id : RecId} {s : State} {r : CallRecord} {h : HoldState}

/-- The record of a holding that becomes a victim: it keeps its units and carries a PREEMPT notice. -/
def victimRecord (s : State) (c : RecId) (r : CallRecord) (h : HoldState) : CallRecord :=
  { r with state := .preemptPending h s.activeLimits.grace c, notice := some .preempt }

theorem finalAgrees_victimRecord (s : State) (c : RecId) (r : CallRecord) (h : HoldState) :
    FinalAgrees (victimRecord s c r h) := by
  simp [FinalAgrees, victimRecord]

/-- The notice of a holding is not a final one (R26). -/
theorem holding_notice_not_final {k : NoticeKind} (hb : NoticeBooks s) (hr : s.rec? id = some r)
    (hs : r.state = .holding h) (hk : r.notice = some k) : k.final = false := by
  obtain ⟨hreclaimed, hexpired⟩ := hb.final id r hr
  rw [hs, hk] at hreclaimed hexpired
  cases k <;> simp_all [NoticeKind.final]

theorem makeVictim_new (hr : s.rec? id = some r) (hs : r.state = .holding h) (hn : r.notice = none) :
    makeVictim c id s = (s.setRec id (victimRecord s c r h)).updPort r.owner (·.joinNotices id) := by
  rw [makeVictim_holding hr hs]
  exact postNotice_setRec_new .preempt s hn

theorem makeVictim_replace {k : NoticeKind} (hr : s.rec? id = some r) (hs : r.state = .holding h)
    (hn : r.notice = some k) (hf : k.final = false) :
    makeVictim c id s = s.setRec id (victimRecord s c r h) := by
  rw [makeVictim_holding hr hs]
  exact postNotice_setRec_replace .preempt s hn hf

theorem makeVictim_rec?_self (hb : NoticeBooks s) (hr : s.rec? id = some r) (hs : r.state = .holding h) :
    (makeVictim c id s).rec? id = some (victimRecord s c r h) := by
  cases hn : r.notice with
  | none =>
    rw [makeVictim_new hr hs hn]
    exact State.rec?_setRec_self s id _
  | some k =>
    rw [makeVictim_replace hr hs hn (holding_notice_not_final hb hr hs hn)]
    exact State.rec?_setRec_self s id _

theorem makeVictim_rec?_other {j : RecId} (c : RecId) (s : State) (hj : j ≠ id) :
    (makeVictim c id s).rec? j = s.rec? j := by
  by_cases hh : ∃ r h, s.rec? id = some r ∧ r.state = .holding h
  · obtain ⟨r, h, hr, hs⟩ := hh
    rw [makeVictim_holding hr hs, Waiting.postNotice_rec?_other _ _ hj, State.rec?_setRec_other _ _ _ _ hj]
  · rw [makeVictim_other fun r h hr hs => hh ⟨r, h, hr, hs⟩]

theorem noticeBooks_makeVictim (c id : RecId) (hb : NoticeBooks s) : NoticeBooks (makeVictim c id s) := by
  by_cases hh : ∃ r h, s.rec? id = some r ∧ r.state = .holding h
  · obtain ⟨r, h, hr, hs⟩ := hh
    have hfinal := finalAgrees_victimRecord s c r h
    cases hn : r.notice with
    | none =>
      rw [makeVictim_new hr hs hn]
      exact noticeBooks_setRec_join (x := victimRecord s c r h) hb hr hn (Option.some_ne_none _) hfinal
    | some k =>
      rw [makeVictim_replace hr hs hn (holding_notice_not_final hb hr hs hn)]
      exact noticeBooks_setRec hb hr (by rfl) (hn ▸ Option.some_ne_none k) (Option.some_ne_none _) hfinal
  · rwa [makeVictim_other fun r h hr hs => hh ⟨r, h, hr, hs⟩]

end

/-! What the making of victims keeps (R96). -/

/-- Only records, the ends of notice lists and the pending sets of ports may differ. -/
structure PlacesKept (s t : State) : Prop where
  pool : t.pool = s.pool
  holdings : t.table.holdings = s.table.holdings
  classCount : t.table.classCount = s.table.classCount
  wait : t.wait = s.wait
  slots : t.slots = s.slots
  untouched : Untouched s t
  notices : ∀ (p : Port) (i : RecId), i ∈ s.ports[p].notices → i ∈ t.ports[p].notices

theorem PlacesKept.refl (s : State) : PlacesKept s s := ⟨rfl, rfl, rfl, rfl, rfl, .refl s, fun _ _ hm => hm⟩

theorem PlacesKept.trans {s t u : State} (h : PlacesKept s t) (k : PlacesKept t u) : PlacesKept s u where
  pool := k.pool.trans h.pool
  holdings := k.holdings.trans h.holdings
  classCount := k.classCount.trans h.classCount
  wait := k.wait.trans h.wait
  slots := k.slots.trans h.slots
  untouched := h.untouched.trans k.untouched
  notices p i hm := k.notices p i (h.notices p i hm)

theorem PlacesKept.setRec (s : State) (id : RecId) (r : CallRecord) : PlacesKept s (s.setRec id r) :=
  ⟨rfl, rfl, rfl, rfl, rfl, .setRec s id r, fun _ _ hm => hm⟩

theorem PlacesKept.joinNotices (s : State) (p : Port) (id : RecId) :
    PlacesKept s (s.updPort p (·.joinNotices id)) := by
  refine ⟨rfl, rfl, rfl, rfl, rfl, .of_updPort s p _ fun ps => by simp [PortState.joinNotices], fun q i hm => ?_⟩
  rw [notices_joined]
  split
  · exact List.mem_append_left _ hm
  · exact hm

theorem PlacesKept.postNotice (s : State) (id : RecId) (k : NoticeKind) : PlacesKept s (postNotice id k s) := by
  rcases postNotice_cases id k s with h | ⟨r, -, h⟩ | ⟨r, -, -, h⟩ <;> rw [h]
  · exact .refl s
  · exact .setRec s id _
  · exact (PlacesKept.setRec s id _).trans (.joinNotices _ r.owner id)

theorem PlacesKept.makeVictim (s : State) (c id : RecId) : PlacesKept s (makeVictim c id s) := by
  by_cases hh : ∃ r h, s.rec? id = some r ∧ r.state = .holding h
  · obtain ⟨r, h, hr, hs⟩ := hh
    rw [makeVictim_holding hr hs]
    exact (PlacesKept.setRec s id _).trans (.postNotice _ id _)
  · rw [makeVictim_other fun r h hr hs => hh ⟨r, h, hr, hs⟩]
    exact .refl s

theorem PlacesKept.makeVictims (c : RecId) (ids : List RecId) (s : State) : PlacesKept s (makeVictims c ids s) := by
  induction ids generalizing s with
  | nil => exact .refl s
  | cons id rest ih => exact (PlacesKept.makeVictim s c id).trans (ih _)

/-- The grace that victims get is that of the active profile, which the making of a victim keeps. -/
theorem victimRecord_kept {s t : State} (h : PlacesKept s t) (c : RecId) (r : CallRecord) (p : HoldState) :
    victimRecord t c r p = victimRecord s c r p := by
  simp [victimRecord, State.activeLimits, h.untouched.policy, h.untouched.time]

/-! All victims (R95, R96). -/

theorem noticeBooks_makeVictims (c : RecId) (ids : List RecId) {s : State} (hb : NoticeBooks s) :
    NoticeBooks (makeVictims c ids s) := by
  induction ids generalizing s with
  | nil => exact hb
  | cons id rest ih => exact ih (noticeBooks_makeVictim c id hb)

/-- A record that is not selected, or no holding, stays as it is. -/
theorem makeVictims_rec?_kept (c : RecId) {ids : List RecId} {s : State} {j : RecId}
    (h : j ∉ ids ∨ ∀ (r : CallRecord) (p : HoldState), s.rec? j = some r → r.state ≠ .holding p) :
    (makeVictims c ids s).rec? j = s.rec? j := by
  induction ids generalizing s with
  | nil => rfl
  | cons id rest ih =>
    have hfirst : (makeVictim c id s).rec? j = s.rec? j := by
      by_cases hj : j = id
      · subst hj
        rw [makeVictim_other (h.resolve_left fun hno => hno List.mem_cons_self)]
      · exact makeVictim_rec?_other c s hj
    refine Eq.trans (ih ?_) hfirst
    rw [hfirst]
    exact h.imp_left fun hno hm => hno (List.mem_cons_of_mem id hm)

/-- A selected holding becomes a victim: those before and after it in the list leave its record alone. -/
theorem makeVictims_rec?_victim (c : RecId) {ids : List RecId} {s : State} {j : RecId} {r : CallRecord} {p : HoldState}
    (hb : NoticeBooks s) (honce : ids.Nodup) (hj : j ∈ ids) (hr : s.rec? j = some r) (hs : r.state = .holding p) :
    (makeVictims c ids s).rec? j = some (victimRecord s c r p) := by
  induction ids generalizing s with
  | nil => exact absurd hj List.not_mem_nil
  | cons id rest ih =>
    obtain ⟨hid, hrest⟩ := List.nodup_cons.1 honce
    rcases List.mem_cons.1 hj with rfl | hm
    · exact (makeVictims_rec?_kept c (.inl hid)).trans (makeVictim_rec?_self hb hr hs)
    · have hne : j ≠ id := fun e => hid (e ▸ hm)
      rw [← victimRecord_kept (.makeVictim s c id)]
      exact ih (noticeBooks_makeVictim c id hb) hrest hm ((makeVictim_rec?_other c s hne).trans hr)

/-- Settles O22: the collector by `makeCollector_empty`, and the victims by induction over the selection. -/
theorem collectorAndVictimsAreMade : Obligations.CollectorAndVictimsAreMade := by
  refine ⟨fun s id r w vs slot h => Admission.makeCollector_empty id r w vs h, fun s c ids honce hb => ?_⟩
  obtain ⟨hpool, hholdings, hcount, hwait, hslots, huntouched, hnotices⟩ := PlacesKept.makeVictims c ids s
  exact ⟨fun id r h hm hr hs => makeVictims_rec?_victim c hb honce hm hr hs, fun id h => makeVictims_rec?_kept c h,
    hpool, hholdings, hcount, hwait, hslots, huntouched, noticeBooks_makeVictims c ids hb, hnotices⟩

/-! The grace and deadline expiries (R72, R73, R98). -/

section
variable {s : State} {id : RecId} {r : CallRecord}

theorem exec_graceExpiry_absent (h : s.resetLow = true ∨ s.rec? id = none) : exec (.graceExpiry id) s = .next s := by
  have hexec : exec (.graceExpiry id) s = execGraceExpiry id s := rfl
  rw [hexec, execGraceExpiry]
  rcases h with h | h <;> simp [h]

theorem exec_graceExpiry_due {h : HoldState} {c : RecId} (hl : s.resetLow = false) (hr : s.rec? id = some r)
    (hs : r.state = .preemptPending h 0 c) : exec (.graceExpiry id) s = .next (reclaim id r c s) := by
  have hexec : exec (.graceExpiry id) s = execGraceExpiry id s := rfl
  simp [hexec, execGraceExpiry, hl, hr, hs]

theorem exec_graceExpiry_early (hl : s.resetLow = false) (hr : s.rec? id = some r)
    (hs : ∀ (h : HoldState) (c : RecId), r.state ≠ .preemptPending h 0 c) : exec (.graceExpiry id) s = .next s := by
  have hexec : exec (.graceExpiry id) s = execGraceExpiry id s := rfl
  cases hst : r.state with
  | preemptPending h g c =>
    cases g with
    | zero => exact absurd hst (hs h c)
    | succ n => simp [hexec, execGraceExpiry, hl, hr, hst]
  | waiting | collecting | holding | reclaimed | expired => simp [hexec, execGraceExpiry, hl, hr, hst]

theorem reclaim_pending {h : HoldState} {g : Nat} {c : RecId} (s : State) (hs : r.state = .preemptPending h g c) :
    reclaim id r c s = distribute (some c) (h.units r.u r.v) (postNotice id .reclaimed (leaveHoldings id
      ((leaveVictims id c s).setRec id { r with state := .reclaimed }))) := by
  simp [reclaim, CallRecord.unitsHeld, hs]

theorem exec_deadlineExpiry_absent (h : s.resetLow = true ∨ s.rec? id = none) :
    exec (.deadlineExpiry id) s = .next s := by
  have hexec : exec (.deadlineExpiry id) s = execDeadlineExpiry id s := rfl
  rw [hexec, execDeadlineExpiry]
  rcases h with h | h <;> simp [h]

theorem exec_deadlineExpiry_found (hl : s.resetLow = false) (hr : s.rec? id = some r) :
    exec (.deadlineExpiry id) s = .next (if r.deadlineDue = true then expireWait id r s else s) := by
  have hexec : exec (.deadlineExpiry id) s = execDeadlineExpiry id s := rfl
  rw [hexec, execDeadlineExpiry]
  simp only [hl, Bool.false_eq_true, if_false, hr]
  split <;> rfl

/-- A deadline is due where a wait or a collection has none of it left (R71). -/
theorem deadlineDue_iff : r.deadlineDue = true ↔ (∃ w : WaitFields, r.state = .waiting w ∧ w.deadline = 0) ∨
    ∃ (w : WaitFields) (n : Nat) (vs : List RecId), r.state = .collecting w n vs ∧ w.deadline = 0 := by
  unfold CallRecord.deadlineDue
  cases r.state <;> simp

theorem expireWait_waiting {w : WaitFields} (s : State) (hs : r.state = .waiting w) :
    expireWait id r s = postNotice id .expired ((leaveWait id r.level s).setRec id { r with state := .expired }) := by
  simp [expireWait, hs]

theorem expireWait_collecting {w : WaitFields} {n : Nat} {vs : List RecId} (s : State)
    (hs : r.state = .collecting w n vs) :
    expireWait id r s = distribute none n (postNotice id .expired (reprieveAll vs
      ((freeSlot id (leaveWait id r.level { s with pool.collected := s.pool.collected - n })).setRec id
        { r with state := .expired }))) := by
  simp [expireWait, endCollecting, hs]

end

/-- Settles O16: an expiry that stands by the equation of the state its record is in, and one that does not by the
branch that leaves the state alone. -/
theorem graceAndDeadlineExpiries : Obligations.GraceAndDeadlineExpiries := by
  refine fun s id => ⟨fun h => ⟨exec_graceExpiry_absent h, exec_deadlineExpiry_absent h⟩, fun r hl hr => ?_⟩
  refine ⟨fun h c hs => ?reclaimed, exec_graceExpiry_early hl hr, fun w hs hz => ?waiting,
    fun w n vs hs hz => ?collecting, fun hwaiting hcollecting => ?early⟩
  case reclaimed => rw [exec_graceExpiry_due hl hr hs, reclaim_pending s hs]
  case waiting =>
    rw [exec_deadlineExpiry_found hl hr, if_pos (deadlineDue_iff.2 (.inl ⟨w, hs, hz⟩)), expireWait_waiting s hs]
  case collecting =>
    rw [exec_deadlineExpiry_found hl hr, if_pos (deadlineDue_iff.2 (.inr ⟨w, n, vs, hs, hz⟩)),
      expireWait_collecting s hs]
  case early =>
    rw [exec_deadlineExpiry_found hl hr, if_neg]
    rw [deadlineDue_iff]
    rintro (⟨w, hs, hz⟩ | ⟨w, n, vs, hs, hz⟩)
    · exact hwaiting w hs hz
    · exact hcollecting w n vs hs hz

end Sys2Proof.Machine.Preemption
end

section
/-! PROOFS. Pacing and pressure (06_pacing_and_pressure.md): the ranges of the policy image and of the Pacing Unit under
each operation that writes them, the active window, the interval boundary, and the statements of chapter 6. -/

namespace Sys2Proof.Machine.PacingAndPressure

/-! Reading and writing one place of a list of fixed length. -/

theorem getElem_set_fin {α : Type} {n : Nat} (v : Vector α n) (i j : Fin n) (x : α) :
    (v.set i x)[j] = if i = j then x else v[j] := by
  simp only [Fin.getElem_fin, Vector.getElem_set, Fin.ext_iff]

theorem getElem_set_set {α : Type} {m n : Nat} (v : Vector (Vector α n) m) (i p : Fin m) (j q : Fin n) (x : α) :
    (v.set i (v[i].set j x))[p][q] = if i = p ∧ j = q then x else v[p][q] := by
  rw [getElem_set_fin]
  by_cases hp : i = p
  · subst hp
    rw [if_pos rfl, getElem_set_fin]
    simp only [true_and]
  · rw [if_neg hp, if_neg fun h => hp h.1]

/-- A property of every place is kept when the new value has it. -/
theorem forall_getElem_set {α : Type} {n : Nat} {v : Vector α n} {i : Fin n} {x : α} {P : Fin n → α → Prop}
    (hx : P i x) (hv : ∀ j : Fin n, P j v[j]) (j : Fin n) : P j (v.set i x)[j] := by
  rw [getElem_set_fin]
  split
  · next hij => exact hij ▸ hx
  · exact hv j

/-! The ranges of the policy image (section 7.2, R123, R136, R138, R139, R157) and the clamps to them. -/

theorem rate_inRange_iff {e : RateEntry} {k : Kind} : e.inRange k = true ↔
    e.weight ≤ 15 ∧ e.reload ≤ 1023 ∧ e.trickle ≤ 15 ∧ e.trickle ≤ e.reload ∧ 1 ≤ e.waitLimit ∧ e.waitLimit ≤ 255 ∧
      (k = .emergency → e.mayWait = true) := by
  cases k <;> simp [RateEntry.inRange, and_assoc]

theorem rate_inRange_mayWait {e : RateEntry} {j k : Kind} (h : e.inRange j = true) :
    ({ e with mayWait := true } : RateEntry).inRange k = true := by
  obtain ⟨hw, hr, ht, htr, hl, hl', -⟩ := rate_inRange_iff.1 h
  exact rate_inRange_iff.2 ⟨hw, hr, ht, htr, hl, hl', fun _ => rfl⟩

/-- A class that is not EMERGENCY needs no may-wait flag. -/
theorem rate_inRange_kind {e : RateEntry} {j k : Kind} (hk : k ≠ .emergency) (h : e.inRange j = true) :
    e.inRange k = true := by
  obtain ⟨hw, hr, ht, htr, hl, hl', -⟩ := rate_inRange_iff.1 h
  exact rate_inRange_iff.2 ⟨hw, hr, ht, htr, hl, hl', fun hk' => absurd hk' hk⟩

theorem thresholds_inRange_iff {t : Thresholds} : t.inRange = true ↔
    1 ≤ t.u1 ∧ t.u1 ≤ t.u2 ∧ t.u2 ≤ t.u3 ∧ t.u3 ≤ 100 ∧ t.d1 < t.u1 ∧ t.d2 < t.u2 ∧ t.d3 < t.u3 := by
  simp [Thresholds.inRange, and_assoc]

theorem limits_inRange_iff {l : Limits} : l.inRange = true ↔
    l.floor ≤ 1023 ∧ 5 ≤ l.interval ∧ l.interval ≤ 100 ∧ 1 ≤ l.grace ∧ l.grace ≤ 255 ∧ 1 ≤ l.stall ∧ l.stall ≤ 255 ∧
      l.exhaust ≤ 255 := by
  simp [Limits.inRange, and_assoc]

theorem window_inRange_iff {w : Window} :
    w.inRange = true ↔ 1 ≤ w.duration ∧ w.duration ≤ 1440 ∧ w.minimum ≤ 3 := by
  simp [Window.inRange, and_assoc]

theorem clampLevel_priority (n : Nat) : (clampLevel .priority n).val = max 1 (min 3 n) := by
  dsimp only [clampLevel]
  split
  · next h => rw [h]; rfl
  · split
    · next h => rw [h]; rfl
    · split
      · next h => rw [h]; rfl
      · show 3 = max 1 (min 3 n)
        omega

theorem clampLevel_general (n : Nat) : (clampLevel .general n).val = max 2 (min 7 n) := by
  dsimp only [clampLevel]
  split
  · show 2 = max 2 (min 7 n)
    omega
  · split
    · show n % 8 = max 2 (min 7 n)
      omega
    · show 7 = max 2 (min 7 n)
      omega

theorem clampClass_inRange (k : Kind) (a : WriteClassArgs) : (clampClass k a).inRange = true := by
  have hu := a.u.isLt
  have hhold := a.hold.isLt
  have hunits : ((((1 ≤ max 1 a.u.toNat ∧ max 1 a.u.toNat ≤ 255) ∧
      min a.v.toNat (max 1 a.u.toNat) ≤ max 1 a.u.toNat) ∧ 1 ≤ max 1 a.hold.toNat) ∧ max 1 a.hold.toNat ≤ 255) := by
    omega
  have hpriority := clampLevel_priority a.level.toNat
  have hgeneral := clampLevel_general a.level.toNat
  simp only [ClassEntry.inRange, Bool.and_eq_true, decide_eq_true_eq]
  refine ⟨hunits, ?_⟩
  cases k with
  | unused => rfl
  | emergency => rfl
  | priority =>
    simp only [clampClass, Bool.and_eq_true, decide_eq_true_eq, Fin.le_def, hpriority]
    exact ⟨Nat.le_max_left 1 _, Nat.max_le.2 ⟨by decide, Nat.min_le_left 3 _⟩⟩
  | general =>
    simp only [clampClass, Bool.and_eq_true, decide_eq_true_eq, Fin.le_def, hgeneral]
    exact ⟨Nat.le_max_left 2 _, rfl⟩

theorem clampRate_inRange (k : Kind) (m : Mode) (a : WriteRatesArgs) : (clampRate k m a).inRange k = true := by
  rw [rate_inRange_iff]
  have hw := a.weight.isLt
  have hr := a.reload.isLt
  have ht := a.trickle.isLt
  have hl := a.waitLimit.isLt
  refine ⟨Nat.le_of_lt_succ hw, Nat.le_of_lt_succ hr, ?_, Nat.min_le_right _ _, Nat.le_max_left _ _, ?_, ?_⟩
  · exact Nat.le_trans (Nat.min_le_left _ _) (Nat.le_of_lt_succ ht)
  · exact Nat.max_le.2 ⟨by decide, Nat.le_of_lt_succ hl⟩
  · rintro rfl
    simp [clampRate]

theorem clampThresholds_inRange (a : WriteThresholdsArgs) : (clampThresholds a).inRange = true := by
  rw [thresholds_inRange_iff]
  simp only [clampThresholds, clampTo]
  omega

theorem clampLimits_inRange (a : WriteLimitsArgs) : (clampLimits a).inRange = true := by
  rw [limits_inRange_iff]
  have hf := a.floor.isLt
  have hg := a.grace.isLt
  have hs := a.stall.isLt
  have hx := a.exhaust.isLt
  simp only [clampLimits, clampTo]
  omega

theorem clampWindow_inRange (old : Window) (pr : ProfileId) (a : WriteWindowArgs) :
    (clampWindow old pr a).inRange = true := by
  rw [window_inRange_iff]
  simp only [clampWindow, clampTo]
  omega

/-! What an operation keeps of the ranges. -/

/-- An operation that leads from `s` to `t` keeps the policy image clamped, and with it the pacing in range. -/
structure InRangeKept (s t : State) : Prop where
  policy : PolicyClamped s → PolicyClamped t
  pacing : PolicyClamped s → PacingInRange s → PacingInRange t

/-- What the Pacing Unit keeps of a class fits the class's active rate entry (R114, R117, R120). -/
def FitsRate (k : ClassPacing) (e : RateEntry) : Prop :=
  k.allowance ≤ e.reload ∧ (k.exhausted = true → k.allowance = 0 ∧ e.mode = .oneshot)

theorem pacingInRange_iff {s : State} : PacingInRange s ↔
    (∀ c : ClassId, FitsRate s.pacing.classes[c] (s.activeRate c)) ∧
      (1 ≤ s.pacing.countdown ∧ s.pacing.countdown ≤ 100) ∧ s.pacing.level ≤ 3 ∧
      s.minimumLevel ≤ s.pacing.level :=
  ⟨fun h => ⟨fun c => ⟨h.allowance c, h.exhausted c⟩, h.countdown, h.level, h.minimum⟩,
    fun ⟨hfits, hcountdown, hlevel, hminimum⟩ =>
      ⟨fun c => (hfits c).1, fun c => (hfits c).2, hcountdown, hlevel, hminimum⟩⟩

/-- A class whose exhausted flag is cleared has to keep its allowance within R alone. -/
theorem fitsRate_cleared {k : ClassPacing} {e : RateEntry} (h : k.allowance ≤ e.reload) (hx : k.exhausted = false) :
    FitsRate k e :=
  ⟨h, fun hyes => absurd (hx.symm.trans hyes) Bool.false_ne_true⟩

/-- A change of profile clamps the allowance, and leaves the flag to a class that stays ONESHOT alone (R120). -/
theorem fitsRate_onProfile {k : ClassPacing} {old new : RateEntry} (h : FitsRate k old) :
    FitsRate (k.onProfile old new) new := by
  refine ⟨Nat.min_le_right _ _, fun hx => ?_⟩
  dsimp only [ClassPacing.onProfile] at hx ⊢
  split at hx
  · exact absurd hx Bool.false_ne_true
  · next hstays =>
    obtain ⟨hzero, holdmode⟩ := h.2 hx
    have hnone : min k.allowance new.reload = 0 := by rw [hzero, Nat.zero_min]
    exact ⟨hnone, Decidable.not_not.1 fun hnew => hstays ⟨holdmode, hnew⟩⟩

theorem policyClamped_congr {s t : State} (hpolicy : t.policy = s.policy) (h : PolicyClamped s) : PolicyClamped t := by
  constructor <;> rw [hpolicy]
  · exact h.classes
  · exact h.rates
  · exact h.thresholds
  · exact h.limits
  · exact h.windows
  · exact h.bars

theorem activeRate_congr {s t : State} (hpolicy : t.policy = s.policy)
    (hprofile : t.time.activeProfile = s.time.activeProfile) (c : ClassId) : t.activeRate c = s.activeRate c := by
  simp only [State.activeRate, hpolicy, hprofile]

theorem minimumLevel_congr {s t : State} (hwindows : t.policy.windows = s.policy.windows)
    (hwindow : t.time.activeWindow = s.time.activeWindow) : t.minimumLevel = s.minimumLevel := by
  simp only [State.minimumLevel, State.windowInForce, hwindows, hwindow]

namespace InRangeKept

theorem refl (s : State) : InRangeKept s s := ⟨id, fun _ => id⟩

theorem trans {s t u : State} (h : InRangeKept s t) (k : InRangeKept t u) : InRangeKept s u where
  policy hs := k.policy (h.policy hs)
  pacing hs hp := k.pacing (h.policy hs) (h.pacing hs hp)

/-- A change to what the ranges do not speak of. -/
theorem of_settings {s t : State} (policy : t.policy = s.policy) (pacing : t.pacing = s.pacing)
    (profile : t.time.activeProfile = s.time.activeProfile) (window : t.time.activeWindow = s.time.activeWindow) :
    InRangeKept s t where
  policy := policyClamped_congr policy
  pacing _ h := by
    rw [pacingInRange_iff] at h ⊢
    rw [pacing, minimumLevel_congr (congrArg Policy.windows policy) window]
    simpa only [activeRate_congr policy profile] using h

theorem of_untouched {s t : State} (h : Untouched s t) : InRangeKept s t :=
  .of_settings h.policy h.pacing (congrArg TimeBase.activeProfile h.time) (congrArg TimeBase.activeWindow h.time)

theorem updPort (s : State) (p : Port) (f : PortState → PortState) : InRangeKept s (s.updPort p f) :=
  .of_settings rfl rfl rfl rfl

theorem updPorts (s : State) (f : Port → PortState → PortState) : InRangeKept s (s.updPorts f) :=
  .of_settings rfl rfl rfl rfl

theorem raiseAll (e : Event) (s : State) : InRangeKept s (raiseAll e s) := .updPorts s _

/-- A change to what the Pacing Unit keeps of one class. -/
theorem updPacing {s : State} {c : ClassId} {f : ClassPacing → ClassPacing}
    (h : FitsRate s.pacing.classes[c] (s.activeRate c) → FitsRate (f s.pacing.classes[c]) (s.activeRate c)) :
    InRangeKept s (s.updPacing c f) where
  policy := policyClamped_congr rfl
  pacing _ hp := by
    obtain ⟨hfits, hrest⟩ := pacingInRange_iff.1 hp
    exact pacingInRange_iff.2
      ⟨forall_getElem_set (P := fun d k => FitsRate k (s.activeRate d)) (h (hfits c)) hfits, hrest⟩

end InRangeKept

/-! Admission (R45, R49, R52, R54, R56). -/

namespace InRangeKept

theorem countAttempt (c : ClassId) (s : State) : InRangeKept s (countAttempt c s) := .updPacing id

/-- The exhausted flag is set where the last unit of a ONESHOT class goes (R117). -/
theorem consume (c : ClassId) (k : Kind) (s : State) : InRangeKept s (consume c k s) := by
  by_cases hk : k = .general
  · subst hk
    by_cases hlast : (s.activeRate c).mode = .oneshot ∧ s.pacing.classes[c].allowance = 1
    · obtain ⟨hmode, hone⟩ := hlast
      rw [Admission.consume_last ⟨hmode, hone⟩]
      refine (InRangeKept.updPacing fun _ => ⟨?_, fun _ => ⟨?_, hmode⟩⟩).trans (.raiseAll _ _)
      · simp only [hone, Nat.sub_self, Nat.zero_le]
      · simp only [hone, Nat.sub_self]
    · rw [Admission.consume_more hlast]
      refine .updPacing fun hfits => ⟨Nat.le_trans (Nat.sub_le _ _) hfits.1, fun hx => ?_⟩
      obtain ⟨hzero, hmode⟩ := hfits.2 hx
      exact ⟨by simp only [hzero], hmode⟩
  · rw [Admission.consume_other s hk]
    exact .refl s

theorem admitDirectly (p : Port) (ref : Half) (c : ClassId) (e : ClassEntry) (s : State) :
    InRangeKept s (admitDirectly p ref c e s).state := by
  unfold Machine.admitDirectly
  refine InRangeKept.trans ?_ (.of_untouched (.evalExhausted _))
  refine InRangeKept.trans ?_ (.consume c e.kind _)
  exact .of_settings rfl rfl rfl rfl

theorem admitCollecting (p : Port) (ref : Half) (c : ClassId) (e : ClassEntry) (victims : List RecId) (s : State) :
    InRangeKept s (admitCollecting p ref c e victims s).state := by
  refine InRangeKept.trans ?_ (.of_untouched (.makeCollector _ _ _ _ _))
  exact .of_settings rfl rfl rfl rfl

theorem admitWaiting (p : Port) (ref : Half) (c : ClassId) (e : ClassEntry) (s : State) :
    InRangeKept s (admitWaiting p ref c e s).state := by
  refine InRangeKept.trans ?_ (.consume c e.kind _)
  exact .of_settings rfl rfl rfl rfl

theorem admitWaitOrRefuse (p : Port) (a : AdmitArgs) (c : ClassId) (e : ClassEntry) (blocked : Bool) (s : State) :
    InRangeKept s (admitWaitOrRefuse p a c e blocked s).state := by
  unfold Machine.admitWaitOrRefuse
  dsimp only
  split
  · exact .admitWaiting p a.ref c e s
  · split <;> exact .refl s

theorem admitPlace (p : Port) (a : AdmitArgs) (c : ClassId) (e : ClassEntry) (s : State) :
    InRangeKept s (admitPlace p a c e s).state := by
  unfold Machine.admitPlace
  dsimp only
  split
  · exact .admitDirectly p a.ref c e s
  · split
    · exact .admitCollecting p a.ref c e _ s
    · exact .admitWaitOrRefuse p a c e _ s

theorem admitChecked (p : Port) (a : AdmitArgs) (c : ClassId) (e : ClassEntry) (s : State) :
    InRangeKept s (admitChecked p a c e s).state := by
  unfold Machine.admitChecked
  split
  · exact .refl s
  · split
    · exact .refl s
    · split
      · exact .refl s
      · split
        · exact .refl s
        · exact .admitPlace p a c e s

theorem runAdmit (p : Port) (a : AdmitArgs) (s : State) : InRangeKept s (runAdmit p a s).state := by
  unfold Machine.runAdmit
  split
  · exact .refl s
  · dsimp only
    split
    · exact .refl s
    · exact (InRangeKept.countAttempt _ s).trans (.admitChecked p a _ _ _)

end InRangeKept

/-! WRITE_CLASS (R135). -/

/-- A class that has left a set of classes is not in it, and the others stand as before. -/
theorem inClasses_without (m : ClassSet) (c d : ClassId) :
    inClasses (m &&& ~~~(1#16 <<< c.val)) d = (inClasses m d && !decide (c = d)) := by
  have hd : d.val < 16 := d.isLt
  have hbit : (1#16 <<< c.val).getLsbD d.val = decide (c = d) := by
    rw [BitVec.getLsbD_shiftLeft, BitVec.getLsbD_one]
    simp only [hd, Fin.ext_iff, decide_true, Bool.true_and, Nat.zero_lt_succ]
    by_cases hcd : c.val = d.val
    · simp [hcd]
    · by_cases hlt : d.val < c.val
      · simp [hlt, hcd]
      · simp only [hlt, hcd, decide_false, Bool.not_false, Bool.true_and, decide_eq_false_iff_not]
        omega
  simp only [inClasses, BitVec.getLsbD_and, BitVec.getLsbD_not, hd, decide_true, Bool.true_and, hbit]

theorem storeClass_classes (c : ClassId) (e : ClassEntry) (s : State) :
    (storeClass c e s).policy.classes = s.policy.classes.set c e := by
  unfold storeClass
  dsimp only
  split <;> rfl

/-- The may-wait flag of a class that is stored as EMERGENCY is set, and nothing else of a rate entry changes. -/
theorem storeClass_rate (c d : ClassId) (e : ClassEntry) (s : State) (p : ProfileId) :
    (storeClass c e s).policy.rates[p][d] =
      if e.kind = .emergency ∧ c = d then { s.policy.rates[p][d] with mayWait := true }
      else s.policy.rates[p][d] := by
  unfold storeClass
  dsimp only
  split
  · next he =>
    simp only [Fin.getElem_fin, Vector.getElem_ofFn, Vector.getElem_set, he, true_and, Fin.ext_iff]
    split
    · next hcd => simp only [hcd]
    · rfl
  · next he => simp only [he, false_and, if_false]

theorem storeClass_bar (c d : ClassId) (e : ClassEntry) (s : State) :
    inClasses (storeClass c e s).policy.bars d =
      (inClasses s.policy.bars d && !decide (e.kind = .emergency ∧ c = d)) := by
  unfold storeClass
  dsimp only
  split
  · next he => simp only [inClasses_without, he, true_and]
  · next he => simp only [he, false_and, decide_false, Bool.not_false, Bool.and_true]

/-- Everything else of the policy image and the Pacing Unit stays. -/
theorem storeClass_frame (c : ClassId) (e : ClassEntry) (s : State) :
    (storeClass c e s).policy.thresholds = s.policy.thresholds ∧ (storeClass c e s).policy.limits = s.policy.limits ∧
      (storeClass c e s).policy.windows = s.policy.windows ∧ (storeClass c e s).pacing = s.pacing ∧
      (storeClass c e s).time = s.time := by
  unfold storeClass
  dsimp only
  split <;> exact ⟨rfl, rfl, rfl, rfl, rfl⟩

theorem policyClamped_storeClass {c : ClassId} {e : ClassEntry} {s : State} (he : e.inRange = true)
    (h : PolicyClamped s) : PolicyClamped (storeClass c e s) := by
  obtain ⟨hclasses, hrates, hthresholds, hlimits, hwindows, hbars⟩ := h
  obtain ⟨hth, hli, hwi, -, -⟩ := storeClass_frame c e s
  refine ⟨?_, fun p d => ?_, by rwa [hth], by rwa [hli], by rwa [hwi], fun d hd => ?_⟩
  · rw [storeClass_classes]
    exact fun d => forall_getElem_set (P := fun _ (x : ClassEntry) => x.inRange = true) he hclasses d
  · rw [storeClass_classes, storeClass_rate, getElem_set_fin]
    by_cases hcd : c = d
    · by_cases hk : e.kind = .emergency
      · rw [if_pos ⟨hk, hcd⟩]
        exact rate_inRange_mayWait (hrates p d)
      · rw [if_neg fun h => hk h.1, if_pos hcd]
        exact rate_inRange_kind hk (hrates p d)
    · rw [if_neg fun h => hcd h.2, if_neg hcd]
      exact hrates p d
  · rw [storeClass_classes, getElem_set_fin] at hd
    rw [storeClass_bar]
    by_cases hcd : c = d
    · rw [if_pos hcd] at hd
      simp only [hd, hcd, and_self, decide_true, Bool.not_true, Bool.and_false]
    · rw [if_neg hcd] at hd
      rw [hbars d hd, Bool.false_and]

/-- The storing of a class keeps R and the mode of its rate entries, so that what the Pacing Unit keeps still fits. -/
theorem fitsRate_storeClass {k : ClassPacing} {s : State} (c d : ClassId) (e : ClassEntry)
    (h : FitsRate k (s.activeRate d)) : FitsRate k ((storeClass c e s).activeRate d) := by
  obtain ⟨-, -, -, -, htime⟩ := storeClass_frame c e s
  unfold State.activeRate
  rw [storeClass_rate, htime]
  split <;> exact h

theorem InRangeKept.storeClass {c : ClassId} {e : ClassEntry} {s : State} (he : e.inRange = true) :
    InRangeKept s (storeClass c e s) where
  policy := policyClamped_storeClass he
  pacing _ h := by
    obtain ⟨hfits, hcountdown, hlevel, hminimum⟩ := pacingInRange_iff.1 h
    obtain ⟨-, -, hwindows, hpacing, htime⟩ := storeClass_frame c e s
    rw [pacingInRange_iff, hpacing, minimumLevel_congr hwindows (congrArg TimeBase.activeWindow htime)]
    exact ⟨fun d => fitsRate_storeClass c d e (hfits d), hcountdown, hlevel, hminimum⟩

/-! WRITE_RATES (R136, R137). -/

/-- What the Pacing Unit keeps of a class whose active rate entry is written (R119, R137). -/
def loadRate (e : RateEntry) (k : ClassPacing) : ClassPacing :=
  { k with allowance := if e.mode = .oneshot then e.reload else min k.allowance e.reload, exhausted := false }

theorem storeRate_eq (pr : ProfileId) (c : ClassId) (e : RateEntry) (s : State) :
    storeRate pr c e s = { s with
      policy.rates := s.policy.rates.set pr (s.policy.rates[pr].set c e)
      pacing.classes := if pr = s.time.activeProfile then s.pacing.classes.set c (loadRate e s.pacing.classes[c])
        else s.pacing.classes } := by
  unfold storeRate
  dsimp only
  split <;> rfl

theorem fitsRate_loadRate (e : RateEntry) (k : ClassPacing) : FitsRate (loadRate e k) e := by
  refine fitsRate_cleared ?_ rfl
  dsimp only [loadRate]
  split
  · exact Nat.le_refl _
  · exact Nat.min_le_right _ _

theorem policyClamped_storeRate {pr : ProfileId} {c : ClassId} {e : RateEntry} {s : State}
    (he : e.inRange s.policy.classes[c].kind = true) (h : PolicyClamped s) : PolicyClamped (storeRate pr c e s) := by
  obtain ⟨hclasses, hrates, hthresholds, hlimits, hwindows, hbars⟩ := h
  rw [storeRate_eq]
  refine ⟨hclasses, fun p d => ?_, hthresholds, hlimits, hwindows, hbars⟩
  rw [getElem_set_set]
  split
  · next hpc => rw [← hpc.2]; exact he
  · exact hrates p d

theorem InRangeKept.storeRate {pr : ProfileId} {c : ClassId} {e : RateEntry} {s : State}
    (he : e.inRange s.policy.classes[c].kind = true) : InRangeKept s (storeRate pr c e s) where
  policy := policyClamped_storeRate he
  pacing _ h := by
    obtain ⟨hfits, hrest⟩ := pacingInRange_iff.1 h
    rw [storeRate_eq]
    refine pacingInRange_iff.2 ⟨fun d => ?_, hrest⟩
    dsimp only [State.activeRate]
    rw [getElem_set_set]
    by_cases hp : pr = s.time.activeProfile
    · simp only [hp, if_true, true_and]
      rw [getElem_set_fin]
      by_cases hcd : c = d
      · simp only [hcd, if_true]
        exact fitsRate_loadRate e _
      · simp only [hcd, if_false]
        exact hfits d
    · simp only [hp, if_false, false_and]
      exact hfits d

/-! The other guarded writes and the bars (R138 to R148). -/

namespace InRangeKept

theorem storeThresholds {pr : ProfileId} {x : Thresholds} {s : State} (hx : x.inRange = true) :
    InRangeKept s { s with policy.thresholds := s.policy.thresholds.set pr x } where
  policy := fun ⟨hclasses, hrates, hthresholds, hlimits, hwindows, hbars⟩ =>
    ⟨hclasses, hrates, fun p => forall_getElem_set (P := fun _ (y : Thresholds) => y.inRange = true) hx hthresholds p,
      hlimits, hwindows, hbars⟩
  pacing := fun _ ⟨hallowance, hexhausted, hcountdown, hlevel, hminimum⟩ =>
    ⟨hallowance, hexhausted, hcountdown, hlevel, hminimum⟩

theorem storeLimits {pr : ProfileId} {l : Limits} {s : State} (hl : l.inRange = true) :
    InRangeKept s (storeLimits pr l s) := by
  have hstored : InRangeKept s { s with policy.limits := s.policy.limits.set pr l } :=
    { policy := fun ⟨hclasses, hrates, hthresholds, hlimits, hwindows, hbars⟩ =>
        ⟨hclasses, hrates, hthresholds,
          fun p => forall_getElem_set (P := fun _ (y : Limits) => y.inRange = true) hl hlimits p, hwindows, hbars⟩
      pacing := fun _ ⟨hallowance, hexhausted, hcountdown, hlevel, hminimum⟩ =>
        ⟨hallowance, hexhausted, hcountdown, hlevel, hminimum⟩ }
  unfold Machine.storeLimits
  dsimp only
  split
  · exact hstored.trans (.of_untouched ((Untouched.refloor _).trans (.evalExhausted _)))
  · exact hstored

theorem acceptWrite (p : Port) (s : State) : InRangeKept s (acceptWrite p s) where
  policy := fun ⟨hclasses, hrates, hthresholds, hlimits, hwindows, hbars⟩ =>
    ⟨hclasses, hrates, hthresholds, hlimits, hwindows, hbars⟩
  pacing := fun _ ⟨hallowance, hexhausted, hcountdown, hlevel, hminimum⟩ =>
    ⟨hallowance, hexhausted, hcountdown, hlevel, hminimum⟩

end InRangeKept

/-- Taking the classes of a list with a property out of a set, one after the other. -/
theorem inClasses_foldl_without {P : ClassId → Prop} [DecidablePred P] (cs : List ClassId) (m : ClassSet)
    (d : ClassId) :
    inClasses (cs.foldl (fun acc c => if P c then acc &&& ~~~(1#16 <<< c.val) else acc) m) d =
      (inClasses m d && !decide (d ∈ cs ∧ P d)) := by
  induction cs generalizing m with
  | nil => simp
  | cons c rest ih =>
    rw [List.foldl_cons, ih]
    by_cases hc : P c
    · rw [if_pos hc, inClasses_without]
      by_cases hcd : c = d
      · simp [← hcd, hc]
      · simp [hcd, Ne.symm hcd]
    · rw [if_neg hc]
      by_cases hcd : d = c
      · simp [hcd, hc]
      · simp [hcd]

/-- The classes that a bar request names, but for those of kind EMERGENCY (R147, R148). -/
theorem inClasses_withoutEmergency (s : State) (m : ClassSet) (d : ClassId) :
    inClasses (withoutEmergency s m) d = (inClasses m d && !decide (s.policy.classes[d].kind = .emergency)) := by
  unfold withoutEmergency
  rw [inClasses_foldl_without (P := fun c => s.policy.classes[c].kind = .emergency)]
  simp only [List.mem_finRange, true_and]

namespace InRangeKept

/-- The manual bar set changes, and holds no EMERGENCY class (R146). -/
theorem setBars {p : Port} {bars : ClassSet} {s : State}
    (h : PolicyClamped s → ∀ c : ClassId, s.policy.classes[c].kind = .emergency → inClasses bars c = false) :
    InRangeKept s (setBars p bars s) := by
  unfold Machine.setBars
  split
  · exact .refl s
  · exact {
      policy := fun hs => ⟨hs.classes, hs.rates, hs.thresholds, hs.limits, hs.windows, h hs⟩
      pacing := fun _ hp => ⟨hp.allowance, hp.exhausted, hp.countdown, hp.level, hp.minimum⟩ }

theorem rearmClass (c : ClassId) (s : State) : InRangeKept s (rearmClass c s) := by
  unfold Machine.rearmClass
  refine .updPacing fun hfits => ?_
  refine fitsRate_cleared ?_ rfl
  dsimp only
  split
  · exact Nat.le_refl _
  · exact hfits.1

theorem runBarSet (p : Port) (mask : Half) (s : State) : InRangeKept s (runBarSet p mask s).state := by
  refine .setBars fun hs c hc => ?_
  have hold := hs.bars c hc
  have hnew := inClasses_withoutEmergency s mask c
  rw [decide_eq_true hc, Bool.not_true, Bool.and_false] at hnew
  simp only [inClasses, BitVec.getLsbD_or] at hold hnew ⊢
  rw [hold, hnew, Bool.or_false]

theorem runBarClear (p : Port) (mask : Half) (s : State) : InRangeKept s (runBarClear p mask s).state := by
  unfold Machine.runBarClear
  split
  · exact .refl s
  · refine .setBars fun hs c hc => ?_
    have hold := hs.bars c hc
    simp only [inClasses, BitVec.getLsbD_and] at hold ⊢
    rw [hold, Bool.false_and]

theorem runRearm (b : Byte) (s : State) : InRangeKept s (runRearm b s).state := by
  unfold Machine.runRearm
  split
  · exact .refl s
  · split
    · exact .refl s
    · exact .rearmClass _ s

end InRangeKept

/-! The active profile and the active window (R120, R121, R159 to R162). -/

/-- A change of the active profile, before Feff follows it (R120). -/
def switchProfile (p : ProfileId) (s : State) : State :=
  { s with
    time.activeProfile := p
    pacing.classes := Vector.ofFn fun c =>
      s.pacing.classes[c].onProfile s.policy.rates[s.time.activeProfile][c] s.policy.rates[p][c] }

theorem setActiveProfile_cases (p : ProfileId) (s : State) :
    p = s.time.activeProfile ∧ setActiveProfile p s = s ∨ Untouched (switchProfile p s) (setActiveProfile p s) := by
  unfold setActiveProfile
  split
  · next h => exact .inl ⟨h, rfl⟩
  · exact .inr ((Untouched.refloor _).trans (.evalExhausted _))

@[simp] theorem setActiveProfile_policy (p : ProfileId) (s : State) : (setActiveProfile p s).policy = s.policy := by
  rcases setActiveProfile_cases p s with ⟨-, h⟩ | h
  · rw [h]
  · simp only [h.policy, switchProfile]

@[simp] theorem setActiveProfile_time (p : ProfileId) (s : State) :
    (setActiveProfile p s).time = { s.time with activeProfile := p } := by
  rcases setActiveProfile_cases p s with ⟨hp, h⟩ | h
  · rw [h, hp]
  · simp only [h.time, switchProfile]

@[simp] theorem setActiveProfile_level (p : ProfileId) (s : State) :
    (setActiveProfile p s).pacing.level = s.pacing.level := by
  rcases setActiveProfile_cases p s with ⟨-, h⟩ | h
  · rw [h]
  · simp only [h.pacing, switchProfile]

@[simp] theorem setActiveProfile_countdown (p : ProfileId) (s : State) :
    (setActiveProfile p s).pacing.countdown = s.pacing.countdown := by
  rcases setActiveProfile_cases p s with ⟨-, h⟩ | h
  · rw [h]
  · simp only [h.pacing, switchProfile]

/-- The allowances fit the rates of the profile that is now active (R120). -/
theorem fitsRate_setActiveProfile (p : ProfileId) {s : State}
    (h : ∀ c : ClassId, FitsRate s.pacing.classes[c] (s.activeRate c)) (c : ClassId) :
    FitsRate (setActiveProfile p s).pacing.classes[c] ((setActiveProfile p s).activeRate c) := by
  rcases setActiveProfile_cases p s with ⟨-, hs⟩ | hs
  · rw [hs]
    exact h c
  · rw [hs.pacing, activeRate_congr hs.policy (congrArg TimeBase.activeProfile hs.time)]
    simp only [switchProfile, Fin.getElem_fin, Vector.getElem_ofFn]
    exact fitsRate_onProfile (h c)

/-- The choice of the active window, with its WINDOW event when that changes it (R160, R161). -/
def chooseWindow (new : Option WindowId) (s : State) : State :=
  if new = s.time.activeWindow then s else raiseAll .window { s with time.activeWindow := new }

@[simp] theorem chooseWindow_policy (new : Option WindowId) (s : State) : (chooseWindow new s).policy = s.policy := by
  unfold chooseWindow
  split <;> rfl

@[simp] theorem chooseWindow_pacing (new : Option WindowId) (s : State) : (chooseWindow new s).pacing = s.pacing := by
  unfold chooseWindow
  split <;> rfl

@[simp] theorem chooseWindow_time (new : Option WindowId) (s : State) :
    (chooseWindow new s).time = { s.time with activeWindow := new } := by
  unfold chooseWindow
  split
  · next h => rw [h]
  · rfl

theorem evalWindow_eq (s : State) : evalWindow s = raiseToMinimum
    (setActiveProfile (profileOfWindow s (windowNow s)) (chooseWindow (windowNow s) s)) := by
  have hprofile : profileOfWindow (chooseWindow (windowNow s) s) (windowNow s) = profileOfWindow s (windowNow s) := by
    simp only [profileOfWindow, chooseWindow_policy]
  rw [← hprofile]
  rfl

@[simp] theorem setPressure_policy (n : Nat) (s : State) : (setPressure n s).policy = s.policy := by
  unfold setPressure
  split <;> rfl

@[simp] theorem setPressure_time (n : Nat) (s : State) : (setPressure n s).time = s.time := by
  unfold setPressure
  split <;> rfl

@[simp] theorem setPressure_pacing (n : Nat) (s : State) :
    (setPressure n s).pacing = { s.pacing with level := n } := by
  unfold setPressure
  split
  · next h => rw [h]
  · rfl

/-- The level is raised to the minimum of the active window, which is 0 when none is active (R121). -/
theorem raiseToMinimum_eq (s : State) : raiseToMinimum s = setPressure (max s.pacing.level s.minimumLevel) s := by
  unfold raiseToMinimum State.minimumLevel
  cases s.windowInForce with
  | none =>
    show s = setPressure (max s.pacing.level 0) s
    rw [Nat.max_zero, setPressure_same]
  | some w => rfl

theorem minimumLevel_le {s : State} (h : PolicyClamped s) : s.minimumLevel ≤ 3 := by
  unfold State.minimumLevel State.windowInForce
  cases s.time.activeWindow with
  | none => exact Nat.zero_le 3
  | some i =>
    obtain ⟨-, -, hmost⟩ := window_inRange_iff.1 (h.windows i)
    exact hmost

@[simp] theorem evalWindow_policy (s : State) : (evalWindow s).policy = s.policy := by
  rw [evalWindow_eq, raiseToMinimum_eq]
  simp only [setPressure_policy, setActiveProfile_policy, chooseWindow_policy]

@[simp] theorem evalWindow_countdown (s : State) : (evalWindow s).pacing.countdown = s.pacing.countdown := by
  rw [evalWindow_eq, raiseToMinimum_eq]
  simp only [setPressure_pacing, setActiveProfile_countdown, chooseWindow_pacing]

/-- The level is raised to the minimum of the window that is now active (R121). -/
theorem evalWindow_level (s : State) :
    (evalWindow s).pacing.level = max s.pacing.level (evalWindow s).minimumLevel := by
  rw [evalWindow_eq, raiseToMinimum_eq]
  simp only [State.minimumLevel, State.windowInForce, setPressure_pacing, setPressure_policy, setPressure_time,
    setActiveProfile_level, chooseWindow_pacing]

theorem fitsRate_evalWindow {s : State} (h : ∀ c : ClassId, FitsRate s.pacing.classes[c] (s.activeRate c))
    (c : ClassId) : FitsRate (evalWindow s).pacing.classes[c] ((evalWindow s).activeRate c) := by
  rw [evalWindow_eq, raiseToMinimum_eq]
  have hchosen : ∀ d : ClassId, FitsRate (chooseWindow (windowNow s) s).pacing.classes[d]
      ((chooseWindow (windowNow s) s).activeRate d) := by
    simpa only [State.activeRate, chooseWindow_pacing, chooseWindow_policy, chooseWindow_time] using h
  have happlied := fitsRate_setActiveProfile (profileOfWindow s (windowNow s)) hchosen c
  simpa only [State.activeRate, setPressure_pacing, setPressure_policy, setPressure_time] using happlied

/-- The pacing is in range after an evaluation of the window also where the level was below the minimum before it. -/
theorem pacingInRange_evalWindow {s : State} (hs : PolicyClamped s)
    (hfits : ∀ c : ClassId, FitsRate s.pacing.classes[c] (s.activeRate c))
    (hcountdown : 1 ≤ s.pacing.countdown ∧ s.pacing.countdown ≤ 100) (hlevel : s.pacing.level ≤ 3) :
    PacingInRange (evalWindow s) := by
  rw [pacingInRange_iff, evalWindow_countdown, evalWindow_level]
  exact ⟨fitsRate_evalWindow hfits, hcountdown,
    Nat.max_le.2 ⟨hlevel, minimumLevel_le (policyClamped_congr (evalWindow_policy s) hs)⟩, Nat.le_max_right _ _⟩

namespace InRangeKept

theorem evalWindow (s : State) : InRangeKept s (evalWindow s) where
  policy := policyClamped_congr (evalWindow_policy s)
  pacing hs h := by
    obtain ⟨hfits, hcountdown, hlevel, -⟩ := pacingInRange_iff.1 h
    exact pacingInRange_evalWindow hs hfits hcountdown hlevel

/-- A window is stored, and the level raised to its minimum where it becomes active (R121, R157). -/
theorem storeWindow {i : WindowId} {w : Window} {s : State} (hw : PolicyClamped s → w.inRange = true) :
    InRangeKept s (storeWindow i w s) := by
  have hstored : PolicyClamped s → PolicyClamped { s with policy.windows := s.policy.windows.set i w } := fun hs =>
    ⟨hs.classes, hs.rates, hs.thresholds, hs.limits,
      fun j => forall_getElem_set (P := fun _ (y : Window) => y.inRange = true) (hw hs) hs.windows j, hs.bars⟩
  refine ⟨fun hs => (InRangeKept.evalWindow _).policy (hstored hs), fun hs h => ?_⟩
  obtain ⟨hfits, hcountdown, hlevel, -⟩ := pacingInRange_iff.1 h
  exact pacingInRange_evalWindow (hstored hs) hfits hcountdown hlevel

theorem setActiveProfile (p : ProfileId) (s : State) : InRangeKept s (setActiveProfile p s) where
  policy := policyClamped_congr (setActiveProfile_policy p s)
  pacing _ h := by
    obtain ⟨hfits, hrest⟩ := pacingInRange_iff.1 h
    have hminimum : (Machine.setActiveProfile p s).minimumLevel = s.minimumLevel :=
      minimumLevel_congr (congrArg Policy.windows (setActiveProfile_policy p s)) (by rw [setActiveProfile_time])
    rw [pacingInRange_iff, setActiveProfile_countdown, setActiveProfile_level, hminimum]
    exact ⟨fitsRate_setActiveProfile p hfits, hrest⟩

theorem storeBase (pr : ProfileId) (s : State) : InRangeKept s (storeBase pr s) := by
  have hstored : InRangeKept s { s with policy.base := pr } := {
    policy := fun hs => ⟨hs.classes, hs.rates, hs.thresholds, hs.limits, hs.windows, hs.bars⟩
    pacing := fun _ hp => ⟨hp.allowance, hp.exhausted, hp.countdown, hp.level, hp.minimum⟩ }
  unfold Machine.storeBase
  dsimp only
  split
  · exact hstored.trans (.setActiveProfile pr _)
  · exact hstored

end InRangeKept

/-! The guarded writes (R143, R144). -/

theorem guardRefusal_state {gen : Half} {s : State} {e : Executed} (h : guardRefusal gen s = some e) : e.state = s := by
  unfold guardRefusal at h
  split at h
  · rw [← Option.some.inj h]; rfl
  · split at h
    · rw [← Option.some.inj h]; rfl
    · exact absurd h (by simp)

namespace InRangeKept

theorem refused {gen : Half} {s : State} {e : Executed} (h : guardRefusal gen s = some e) : InRangeKept s e.state := by
  rw [guardRefusal_state h]
  exact .refl s

theorem accepted {p : Port} {s t : State} {bytes : List Byte} (h : InRangeKept s t) :
    InRangeKept s (accepted p t bytes).state :=
  h.trans (.acceptWrite p t)

theorem runWriteClass (p : Port) (a : WriteClassArgs) (s : State) : InRangeKept s (runWriteClass p a s).state := by
  unfold Machine.runWriteClass
  split
  · exact .refl s
  · exact .refl s
  · split
    · exact .refused (by assumption)
    · split
      · exact .refl s
      · exact .accepted (.storeClass (clampClass_inRange _ a))

theorem runWriteRates (p : Port) (a : WriteRatesArgs) (s : State) : InRangeKept s (runWriteRates p a s).state := by
  unfold Machine.runWriteRates
  split
  · exact .refl s
  · exact .refl s
  · exact .refl s
  · split
    · exact .refused (by assumption)
    · exact .accepted (.storeRate (clampRate_inRange _ _ a))

theorem runWriteThresholds (p : Port) (a : WriteThresholdsArgs) (s : State) :
    InRangeKept s (runWriteThresholds p a s).state := by
  unfold Machine.runWriteThresholds
  split
  · exact .refl s
  · split
    · exact .refused (by assumption)
    · exact .accepted (.storeThresholds (clampThresholds_inRange a))

theorem runWriteLimits (p : Port) (a : WriteLimitsArgs) (s : State) : InRangeKept s (runWriteLimits p a s).state := by
  unfold Machine.runWriteLimits
  split
  · exact .refl s
  · split
    · exact .refused (by assumption)
    · exact .accepted (.storeLimits (clampLimits_inRange a))

theorem runSelectProfile (p : Port) (a : SelectProfileArgs) (s : State) :
    InRangeKept s (runSelectProfile p a s).state := by
  unfold Machine.runSelectProfile
  split
  · exact .refl s
  · split
    · exact .refused (by assumption)
    · exact .accepted (.storeBase _ s)

theorem runWriteWindow (p : Port) (a : WriteWindowArgs) (s : State) : InRangeKept s (runWriteWindow p a s).state := by
  unfold Machine.runWriteWindow
  split
  · exact .refl s
  · exact .refl s
  · split
    · exact .refused (by assumption)
    · exact .accepted (.storeWindow fun _ => clampWindow_inRange _ _ a)

/-- The ranges of a window do not speak of its bar mask (R158). -/
theorem runWriteWindowBars (p : Port) (a : WriteWindowBarsArgs) (s : State) :
    InRangeKept s (runWriteWindowBars p a s).state := by
  unfold Machine.runWriteWindowBars
  split
  · exact .refl s
  · split
    · exact .refused (by assumption)
    · exact .accepted (.storeWindow fun hs => hs.windows _)

end InRangeKept

/-! The interval boundary (R112, R122 to R126). -/

theorem reached_cons (q t : Nat) (ts : List Nat) : reached q (t :: ts) = (if t ≤ q then 1 else 0) + reached q ts := by
  by_cases h : t ≤ q
  · simp [reached, h, Nat.add_comm]
  · simp [reached, h]

theorem reached_three (q a b c : Nat) : reached q [a, b, c] =
    (if a ≤ q then 1 else 0) + (if b ≤ q then 1 else 0) + (if c ≤ q then 1 else 0) := by
  have hnil : reached q [] = 0 := rfl
  simp only [reached_cons, hnil, Nat.add_zero, Nat.add_assoc]

theorem hysteresis_le {t : Thresholds} {q level : Nat} (h : level ≤ 3) : hysteresis t q level ≤ 3 := by
  have hup : reached q [t.u1, t.u2, t.u3] ≤ 3 := List.length_filter_le _ _
  have hdown : reached q [t.d1, t.d2, t.d3] ≤ 3 := List.length_filter_le _ _
  unfold hysteresis
  dsimp only
  split
  · exact hup
  · split
    · exact hdown
    · exact h

/-- Stage 2 keeps the level within 3 and at or above the window's minimum (R124). -/
theorem newLevel_bounds {s : State} (hs : PolicyClamped s) (h : s.pacing.level ≤ 3) :
    newLevel s ≤ 3 ∧ s.minimumLevel ≤ newLevel s := by
  have hfound : max (hysteresis s.activeThresholds (occupancy s.pool) s.pacing.level) s.minimumLevel ≤ 3 :=
    Nat.max_le.2 ⟨hysteresis_le h, minimumLevel_le hs⟩
  have hleast : s.minimumLevel ≤ max (hysteresis s.activeThresholds (occupancy s.pool) s.pacing.level) s.minimumLevel :=
    Nat.le_max_right _ _
  unfold newLevel
  dsimp only
  split
  · next hraised => exact ⟨by decide, Nat.le_trans hleast (Nat.le_of_lt hraised.1)⟩
  · exact ⟨hfound, hleast⟩

section
variable {s : State} {c : ClassId}

/-- A class that is not GENERAL, or ONESHOT, keeps its allowance at a boundary. -/
theorem newAllowance_kept (level : Nat) (h : s.policy.classes[c].kind ≠ .general ∨ (s.activeRate c).mode = .oneshot) :
    newAllowance s level c = s.pacing.classes[c].allowance := by
  unfold newAllowance
  dsimp only
  split
  · next hk => rw [h.resolve_left (Decidable.not_not.2 hk)]
  · rfl
  · rfl
  · rfl

theorem newAllowance_fixed (level : Nat) (hk : s.policy.classes[c].kind = .general)
    (hm : (s.activeRate c).mode = .fixed) : newAllowance s level c = (s.activeRate c).reload := by
  simp only [newAllowance, hk, hm]

theorem newAllowance_barred (level : Nat) (hk : s.policy.classes[c].kind = .general)
    (hm : (s.activeRate c).mode = .paced) (hb : s.isBarred c = true) : newAllowance s level c = 0 := by
  simp only [newAllowance, hk, hm, hb, if_true]

theorem newAllowance_trickle (level : Nat) (hk : s.policy.classes[c].kind = .general)
    (hm : (s.activeRate c).mode = .paced) (hb : s.isBarred c = false) (hn : s.inShareSet c = false) :
    newAllowance s level c = if level < 3 then (s.activeRate c).trickle else 0 := by
  simp only [newAllowance, hk, hm, hb, hn, Bool.false_eq_true, if_false]

theorem newAllowance_shared (level : Nat) (h : s.inShareSet c = true) : newAllowance s level c =
    min (s.activeRate c).reload (max (if level < 3 then (s.activeRate c).trickle else 0)
      (scaledShare s level c / s.policy.classes[c].u)) := by
  have hset := h
  simp only [State.inShareSet, Bool.and_eq_true, beq_iff_eq, Bool.not_eq_true', decide_eq_true_eq] at hset
  obtain ⟨⟨⟨⟨hk, hm⟩, hb⟩, -⟩, -⟩ := hset
  simp only [newAllowance, hk, hm, hb, h, Bool.false_eq_true, if_false, if_true]

/-- The new allowance is within R: it is kept, is R, or is bounded by R or by the trickle (R114, R126). -/
theorem newAllowance_le (level : Nat) (hs : PolicyClamped s)
    (h : s.pacing.classes[c].allowance ≤ (s.activeRate c).reload) :
    newAllowance s level c ≤ (s.activeRate c).reload := by
  by_cases hkept : s.policy.classes[c].kind ≠ .general ∨ (s.activeRate c).mode = .oneshot
  · rw [newAllowance_kept level hkept]
    exact h
  · obtain ⟨hk, hmode⟩ := not_or.1 hkept
    have hk := Decidable.not_not.1 hk
    cases hm : (s.activeRate c).mode with
    | oneshot => exact absurd hm hmode
    | fixed => exact Nat.le_of_eq (newAllowance_fixed level hk hm)
    | paced =>
      cases hb : s.isBarred c with
      | true => rw [newAllowance_barred level hk hm hb]; exact Nat.zero_le _
      | false =>
        cases hn : s.inShareSet c with
        | true => rw [newAllowance_shared level hn]; exact Nat.min_le_left _ _
        | false =>
          rw [newAllowance_trickle level hk hm hb hn]
          split
          · obtain ⟨-, -, -, htrickle, -⟩ := rate_inRange_iff.1 (hs.rates s.time.activeProfile c)
            exact htrickle
          · exact Nat.zero_le _

end

/-- What the Pacing Unit keeps of a class after a boundary (R112). -/
def closeInterval (s : State) (c : ClassId) : ClassPacing :=
  { s.pacing.classes[c] with
    allowance := newAllowance s (newLevel s) c, closed := s.pacing.classes[c].attempts, attempts := 0 }

theorem fitsRate_closeInterval {s : State} {c : ClassId} (hs : PolicyClamped s)
    (h : FitsRate s.pacing.classes[c] (s.activeRate c)) : FitsRate (closeInterval s c) (s.activeRate c) := by
  refine ⟨newAllowance_le _ hs h.1, fun hx => ?_⟩
  obtain ⟨hzero, hmode⟩ := h.2 hx
  exact ⟨(newAllowance_kept _ (.inr hmode)).trans hzero, hmode⟩

/-- The Pacing Unit after a boundary. -/
def closedPacing (s : State) : Machine.Pacing where
  countdown := if s.pacing.reloadOpen then s.activeLimits.interval else s.pacing.countdown
  level := newLevel s
  boundaryDue := false
  reloadOpen := false
  classes := Vector.ofFn (closeInterval s)

/-- A boundary writes the Pacing Unit, and raises PRESSURE when the level changes (R112, R121). -/
theorem paceBoundary_eq (s : State) : paceBoundary s =
    if newLevel s = s.pacing.level then { s with pacing := closedPacing s }
    else raiseAll .pressure { s with pacing := closedPacing s } := by
  unfold paceBoundary setPressure
  dsimp only
  split
  · next h =>
    have hsame : { closedPacing s with level := s.pacing.level } = closedPacing s := by
      rw [← h]
      rfl
    exact congrArg (fun pacing => { s with pacing := pacing }) hsame
  · rfl

@[simp] theorem paceBoundary_policy (s : State) : (paceBoundary s).policy = s.policy := by
  rw [paceBoundary_eq]
  split <;> rfl

@[simp] theorem paceBoundary_time (s : State) : (paceBoundary s).time = s.time := by
  rw [paceBoundary_eq]
  split <;> rfl

@[simp] theorem paceBoundary_pacing (s : State) : (paceBoundary s).pacing = closedPacing s := by
  rw [paceBoundary_eq]
  split <;> rfl

theorem closedPacing_class (s : State) (c : ClassId) : (closedPacing s).classes[c] = closeInterval s c := by
  simp only [closedPacing, Fin.getElem_fin, Vector.getElem_ofFn]

/-- The interval that a countdown is loaded with lies within 1 to 100 (R111, R139). -/
theorem activeInterval_bounds {s : State} (hs : PolicyClamped s) :
    1 ≤ s.activeLimits.interval ∧ s.activeLimits.interval ≤ 100 := by
  obtain ⟨-, hleast, hmost, -⟩ := limits_inRange_iff.1 (hs.limits s.time.activeProfile)
  exact ⟨Nat.le_trans (by decide) hleast, hmost⟩

theorem InRangeKept.paceBoundary (s : State) : InRangeKept s (paceBoundary s) where
  policy := policyClamped_congr (paceBoundary_policy s)
  pacing hs h := by
    obtain ⟨hfits, hcountdown, hlevel, -⟩ := pacingInRange_iff.1 h
    have hpolicy := paceBoundary_policy s
    have htime := paceBoundary_time s
    obtain ⟨hmost, hleast⟩ := newLevel_bounds hs hlevel
    have hfound : (closedPacing s).level = newLevel s := rfl
    rw [pacingInRange_iff, paceBoundary_pacing, hfound,
      minimumLevel_congr (congrArg Policy.windows hpolicy) (congrArg TimeBase.activeWindow htime)]
    refine ⟨fun c => ?_, ?_, hmost, hleast⟩
    · rw [activeRate_congr hpolicy (congrArg TimeBase.activeProfile htime), closedPacing_class]
      exact fitsRate_closeInterval hs (hfits c)
    · dsimp only [closedPacing]
      split
      · exact activeInterval_bounds hs
      · exact hcountdown

/-! TICK (R111, R151). -/

theorem tickSecond_active (t : TimeBase) :
    t.tickSecond.activeProfile = t.activeProfile ∧ t.tickSecond.activeWindow = t.activeWindow := by
  unfold TimeBase.tickSecond
  repeat' split
  all_goals exact ⟨rfl, rfl⟩

/-- A tick changes neither the active profile nor the active window. -/
theorem tick_active (t : TimeBase) : t.tick.activeProfile = t.activeProfile ∧ t.tick.activeWindow = t.activeWindow := by
  unfold TimeBase.tick
  dsimp only
  split
  · exact ⟨rfl, rfl⟩
  · exact tickSecond_active _

theorem InRangeKept.tickCountdown (s : State) : InRangeKept s (tickCountdown s) := by
  unfold Machine.tickCountdown
  split
  · exact ⟨policyClamped_congr rfl, fun hs h => ⟨h.allowance, h.exhausted, activeInterval_bounds hs, h.level, h.minimum⟩⟩
  · next hlong =>
    refine ⟨policyClamped_congr rfl, fun _ h => ⟨h.allowance, h.exhausted, ?_, h.level, h.minimum⟩⟩
    exact ⟨Nat.le_sub_of_add_le (Nat.not_le.1 hlong), Nat.le_trans (Nat.sub_le _ _) h.countdown.2⟩

theorem InRangeKept.tickAll (s : State) : InRangeKept s (tickAll s) := by
  obtain ⟨hprofile, hwindow⟩ := tick_active (Machine.tickCountdown s).time
  exact (InRangeKept.tickCountdown s).trans (.of_settings rfl rfl hprofile hwindow)

/-! The time of day (R152 to R155, R160). -/

theorem InRangeKept.loadTime (seconds : BitVec 32) (ticks : Nat) (s : State) :
    InRangeKept s (loadTime seconds ticks s) := by
  refine InRangeKept.trans ?_ (.evalWindow _)
  exact .of_settings rfl rfl rfl rfl

theorem InRangeKept.setTimeOfDay (seconds : BitVec 32) (ticks : Nat) (s : State) :
    InRangeKept s (setTimeOfDay seconds ticks s) := by
  unfold Machine.setTimeOfDay
  split
  · exact .loadTime seconds ticks s
  · dsimp only
    split
    · exact .of_settings rfl rfl rfl rfl
    · exact .loadTime seconds ticks s

theorem InRangeKept.takeSecond (e : SecondEnd) (s : State) : InRangeKept s (takeSecond e s) := by
  refine InRangeKept.trans ?_ (.evalWindow _)
  exact .of_settings rfl rfl rfl rfl

/-! The requests that the ranges do not speak of (chapters 1, 2, 4 and 9). -/

namespace InRangeKept

/-- A record request is refused, or meets the record that it names. -/
theorem named_refused {p : Port} {a : RecordArgs} {s : State} {e : Executed} (h : named p a s = .refused e) :
    InRangeKept s e.state := by
  unfold named at h
  split at h
  · cases h; exact .refl s
  · split at h
    · cases h; exact .refl s
    · split at h
      · cases h; exact .refl s
      · split at h
        · cases h; exact .refl s
        · cases h

theorem runRelease (p : Port) (a : RecordArgs) (s : State) : InRangeKept s (runRelease p a s).state := by
  unfold Machine.runRelease
  split
  · next h => exact .named_refused h
  · unfold releaseFound
    split
    · exact .of_untouched (.releaseRecord s _ _)
    · exact .of_untouched (.releaseRecord s _ _)
    · exact .of_untouched (.freeRecord s _)
    all_goals exact .refl s

theorem runCancel (p : Port) (a : RecordArgs) (s : State) : InRangeKept s (runCancel p a s).state := by
  unfold Machine.runCancel
  split
  · next h => exact .named_refused h
  · unfold cancelFound
    split
    · exact .of_untouched (.withdrawRecord s _ _)
    · exact .of_untouched (.withdrawRecord s _ _)
    · exact .of_untouched (.freeRecord s _)
    all_goals exact .refl s

theorem runSettle (p : Port) (a : RecordArgs) (s : State) : InRangeKept s (runSettle p a s).state := by
  unfold Machine.runSettle
  split
  · next h => exact .named_refused h
  · unfold settleFound
    dsimp only
    split
    · exact .of_untouched (.endSetup s _ _)
    · exact .of_untouched (.endSetup s _ _)
    · exact .refl s

theorem runQuery (id : Half) (s : State) : InRangeKept s (runQuery id s).state := by
  unfold Machine.runQuery
  split
  · exact .refl s
  · split <;> exact .refl s

theorem takeNotice (id : RecId) (r : CallRecord) (s : State) : InRangeKept s (takeNotice id r s) :=
  .of_settings rfl rfl rfl rfl

theorem runFetchNotice (p : Port) (s : State) : InRangeKept s (runFetchNotice p s).state := by
  unfold Machine.runFetchNotice
  split
  · exact .refl s
  · split
    · exact .refl s
    · split
      · exact .refl s
      · dsimp only [answered]
        split
        · exact .of_untouched (.freeRecord s _)
        · exact .takeNotice _ _ s

theorem runReadClass (b : Byte) (s : State) : InRangeKept s (runReadClass b s).state := by
  unfold Machine.runReadClass
  split <;> exact .refl s

theorem runReadPolicy (a : ReadPolicyArgs) (s : State) : InRangeKept s (runReadPolicy a s).state := by
  unfold Machine.runReadPolicy
  split <;> exact .refl s

theorem runSetEnables (p : Port) (mask : Half) (s : State) : InRangeKept s (runSetEnables p mask s).state := by
  exact .updPort s p fun ps => { ps with enables := mask.extractLsb' 0 9 }

theorem raiseCapacity (t : Nat) (s : State) : InRangeKept s (raiseCapacity t s) := by
  unfold Machine.raiseCapacity
  refine InRangeKept.trans ?_ (.of_untouched (.distribute _ _ _))
  refine InRangeKept.trans ?_ (.of_untouched (.refloor _))
  exact .of_settings rfl rfl rfl rfl

theorem cutCapacity (t : Nat) (s : State) : InRangeKept s (cutCapacity t s) := by
  unfold Machine.cutCapacity
  refine InRangeKept.trans ?_ (.of_untouched (.refloor _))
  exact .of_settings rfl rfl rfl rfl

theorem writeTarget (t : Nat) (s : State) : InRangeKept s (writeTarget t s) := by
  unfold Machine.writeTarget
  refine InRangeKept.trans ?_ (.of_untouched (.evalExhausted _))
  split
  · exact .raiseCapacity t s
  · exact .cutCapacity t s

end InRangeKept

/-! The engine and the ports (R180 to R192). -/

theorem policyClamped_reset : PolicyClamped State.reset := by
  constructor <;> decide

theorem pacingInRange_reset : PacingInRange State.reset := by
  constructor <;> decide

namespace InRangeKept

theorem startTransaction (p : Port) (s : State) : InRangeKept s (startTransaction p s) := by
  unfold Machine.startTransaction
  dsimp only
  split
  · exact .refl s
  · exact .updPort s p _

theorem endTransaction (p : Port) (clocks : Nat) (f : Frame) (s : State) :
    InRangeKept s (endTransaction p clocks f s) := .updPort s p _

theorem claim {p : Port} {tag : Byte} {q : Request} {s s1 : State} (h : claim p tag q s = some s1) :
    InRangeKept s s1 := by
  rw [claim_pointer h]
  exact .of_settings rfl rfl rfl rfl

/-- The taking of a request moves the pointer and hands a frame in at a port. -/
theorem engineTake {p : Port} {tag : Byte} {q : Request} {s s1 : State} (h : engineTake p tag q s = some s1) :
    InRangeKept s s1 := by
  unfold Machine.engineTake at h
  split at h
  · exact .claim h
  · split at h
    · exact ((InRangeKept.startTransaction p s).trans (.endTransaction p _ _ _)).trans (.claim h)
    · exact absurd h (by simp)

theorem finishIfDone (p : Port) (s : State) : InRangeKept s (finishIfDone p s) := by
  unfold Machine.finishIfDone
  split
  · exact .updPort s p _
  · exact .refl s

theorem resetRecord (id : RecId) (r : CallRecord) (s : State) : InRangeKept s (resetRecord id r s) := by
  unfold Machine.resetRecord
  split
  · exact .of_untouched (.releaseRecord s id r)
  · exact .of_untouched (.releaseRecord s id r)
  · exact .of_untouched (.withdrawRecord s id r)
  · exact .of_untouched (.withdrawRecord s id r)
  · exact .of_untouched (.freeRecord s id)
  · exact .of_untouched (.freeRecord s id)

theorem resetNext (p : Port) (s : State) : InRangeKept s (resetNext p s) := by
  unfold Machine.resetNext
  split
  · exact .refl s
  · split
    · exact .refl s
    · exact .resetRecord _ _ s

/-- The power-on values lie in their ranges (R131, R150, R164). -/
theorem powerOn (s : State) : InRangeKept s
    { State.reset with ports := Vector.ofFn fun p => s.ports[p].powerOn, pending := s.pending } := by
  have hkept : InRangeKept State.reset
      { State.reset with ports := Vector.ofFn fun p => s.ports[p].powerOn, pending := s.pending } :=
    .of_settings rfl rfl rfl rfl
  exact ⟨fun _ => hkept.policy policyClamped_reset, fun _ _ => hkept.pacing policyClamped_reset pacingInRange_reset⟩

end InRangeKept

/-! Every command and every step. -/

/-- Where an outcome is a next state, it is one that keeps the ranges. -/
def OutcomeKept (s : State) (o : Host.Outcome State Fault Refusal) : Prop := ∀ t : State, o = .next t → InRangeKept s t

namespace OutcomeKept

theorem next {s t : State} (h : InRangeKept s t) : OutcomeKept s (.next t) := by
  rintro _ ⟨⟩
  exact h

/-- An event whose condition does not stand changes nothing (log 3). -/
theorem ite {s : State} {b : Prop} [Decidable b] {x y : Host.Outcome State Fault Refusal} (hx : OutcomeKept s x)
    (hy : OutcomeKept s y) : OutcomeKept s (if b then x else y) := by
  split
  · exact hx
  · exact hy

/-- A request keeps the ranges when its execution does. -/
theorem runRequest {p : Port} {tag : Byte} {q : Request} {run : State → Executed} {s : State}
    (h : ∀ s1 : State, InRangeKept s1 (run s1).state) : OutcomeKept s (runRequest p tag q run s) := by
  cases htake : engineTake p tag q s with
  | none => rw [runRequest_idle htake]; exact .next (.refl s)
  | some s1 =>
    rw [runRequest_taken htake]
    exact .next (((InRangeKept.engineTake htake).trans (h s1)).trans (.updPort _ p _))

theorem portClear (p : Port) (tag : Byte) (s : State) : OutcomeKept s (execPortClear p tag s) := by
  unfold execPortClear
  split
  · exact .next (.refl s)
  · next h =>
    exact .next (((InRangeKept.engineTake h).trans (.updPort _ p _)).trans (.finishIfDone p _))

theorem setupTimerExpiry (id : RecId) (s : State) : OutcomeKept s (execSetupTimerExpiry id s) := by
  refine .ite (.next (.refl s)) ?_
  split
  · exact .next (.refl s)
  · exact .ite (.next (.of_untouched (.endSetup s id _))) (.next (.refl s))

theorem graceExpiry (id : RecId) (s : State) : OutcomeKept s (execGraceExpiry id s) := by
  refine .ite (.next (.refl s)) ?_
  split
  · exact .next (.refl s)
  · split
    · exact .next (.of_untouched (.reclaim s id _ _))
    · exact .next (.refl s)

theorem deadlineExpiry (id : RecId) (s : State) : OutcomeKept s (execDeadlineExpiry id s) := by
  refine .ite (.next (.refl s)) ?_
  split
  · exact .next (.refl s)
  · exact .ite (.next (.of_untouched (.expireWait s id _))) (.next (.refl s))

theorem secondBoundary (s : State) : OutcomeKept s (execSecondBoundary s) := by
  refine .ite (.next (.refl s)) ?_
  split
  · exact .next (.refl s)
  · exact .next (.takeSecond _ s)

theorem portReset (p : Port) (s : State) : OutcomeKept s (execPortReset p s) :=
  .ite (.next (.refl s)) (.ite (.next (.updPort s p _))
    (.next ((InRangeKept.updPort s p _).trans (.finishIfDone p _))))

end OutcomeKept

theorem exec_inRangeKept (i : Instr) (s : State) : OutcomeKept s (exec i s) := by
  cases i with
  | admitCall p tag a => exact .runRequest (.runAdmit p a)
  | release p tag a => exact .runRequest (.runRelease p a)
  | cancel p tag a => exact .runRequest (.runCancel p a)
  | settle p tag a => exact .runRequest (.runSettle p a)
  | query p tag id => exact .runRequest (.runQuery id)
  | fetchNotice p tag => exact .runRequest (.runFetchNotice p)
  | readEvents p tag => exact .runRequest fun s1 => .updPort s1 p _
  | setEnables p tag mask => exact .runRequest (.runSetEnables p mask)
  | readClass p tag cls => exact .runRequest (.runReadClass cls)
  | readPolicy p tag a => exact .runRequest (.runReadPolicy a)
  | readPool | readStatus | readTime | readIdent | unknownRequestCode => exact .runRequest fun s1 => .refl s1
  | barSet p tag mask => exact .runRequest (.runBarSet p mask)
  | barClear p tag mask => exact .runRequest (.runBarClear p mask)
  | rearm p tag cls => exact .runRequest (.runRearm cls)
  | writeClass p tag a => exact .runRequest (.runWriteClass p a)
  | writeRates p tag a => exact .runRequest (.runWriteRates p a)
  | writeThresholds p tag a => exact .runRequest (.runWriteThresholds p a)
  | writeLimits p tag a => exact .runRequest (.runWriteLimits p a)
  | selectProfile p tag a => exact .runRequest (.runSelectProfile p a)
  | writeWindow p tag a => exact .runRequest (.runWriteWindow p a)
  | writeWindowBars p tag a => exact .runRequest (.runWriteWindowBars p a)
  | writeCapacity p tag target => exact .runRequest fun s1 => .writeTarget _ s1
  | setTime p tag a => exact .runRequest fun s1 => .setTimeOfDay a.seconds _ s1
  | portClear p tag => exact .portClear p tag s
  | transactionStart p => exact .next (.startTransaction p s)
  | transactionEnd p clocks f => exact .next (.endTransaction p clocks f s)
  | portReset p => exact .portReset p s
  | portResetRecord p =>
    exact .ite (.next (.refl s))
      (.ite (.next ((InRangeKept.resetNext p s).trans (.finishIfDone p _))) (.next (.refl s)))
  | portResetRelease p => exact .next (.updPort s p _)
  | resetAssert => exact .next (.of_settings rfl rfl rfl rfl)
  | powerOnReset => exact .next (.powerOn s)
  | tick => exact .ite (.next (.refl s)) (.next (.tickAll s))
  | setupTimerExpiry id => exact .setupTimerExpiry id s
  | graceExpiry id => exact .graceExpiry id s
  | deadlineExpiry id => exact .deadlineExpiry id s
  | intervalBoundary => exact .ite (.next (.refl s)) (.ite (.next (.paceBoundary s)) (.next (.refl s)))
  | waitListBoundaryWork =>
    exact .ite (.next (.refl s)) (.ite (.next (.of_untouched (.boundaryWork s))) (.next (.refl s)))
  | secondBoundary => exact .secondBoundary s

theorem step_inRangeKept {s t : State} (h : step s = .next t) : InRangeKept s t := by
  unfold step at h
  split at h
  · cases h
    exact .refl s
  · next i rest _ =>
    have hqueue : InRangeKept s { s with pending := rest } := .of_settings rfl rfl rfl rfl
    exact hqueue.trans (exec_inRangeKept i _ t h)

/-- Settles O54: each operation that writes the policy image or the Pacing Unit keeps both in range, and a step is a
command over these. -/
theorem everyStepKeepsPolicyAndPacingInRange : Obligations.EveryStepKeepsPolicyAndPacingInRange :=
  ⟨fun _ _ hs h => (step_inRangeKept h).policy hs, fun _ _ hp hs h => (step_inRangeKept h).pacing hs hp⟩

/-! The active window (R159 to R161). -/

theorem containsNow_iff {w : Window} {t : TimeBase} : w.containsNow t = true ↔
    w.enabled = true ∧ t.state = .running ∧ w.start.toNat ≤ t.seconds.toNat ∧
      (if w.daily then (t.seconds.toNat - w.start.toNat) % 86400 < w.duration * 60
        else t.seconds.toNat < w.start.toNat + w.duration * 60) := by
  unfold Window.containsNow
  cases w.daily <;> simp [and_assoc]

theorem windowNow_none {s : State} (h : ∀ i : WindowId, s.policy.windows[i].containsNow s.time = false) :
    windowNow s = none := by
  unfold windowNow
  rw [List.find?_eq_none]
  exact fun i _ => Bool.not_eq_true _ ▸ h i

/-- The search goes through the windows by rising number, so that it ends at the lowest one (R160). -/
theorem windowNow_some {s : State} {i : WindowId} (h : s.policy.windows[i].containsNow s.time = true)
    (hlow : ∀ j : WindowId, j < i → s.policy.windows[j].containsNow s.time = false) : windowNow s = some i := by
  unfold windowNow
  rw [List.find?_eq_some_iff_getElem]
  refine ⟨h, i.val, by simp, by simp, fun j hj => ?_⟩
  simpa using hlow ⟨j, Nat.lt_trans hj i.isLt⟩ hj

theorem windowInForce_applied (new : Option WindowId) (p : ProfileId) (s : State) :
    (setActiveProfile p (chooseWindow new s)).windowInForce = new.map fun i => s.policy.windows[i] := by
  simp only [State.windowInForce, setActiveProfile_policy, setActiveProfile_time, chooseWindow_policy,
    chooseWindow_time]

theorem raiseToMinimum_none {s : State} (h : s.windowInForce = none) : raiseToMinimum s = s := by
  simp only [raiseToMinimum, h]

theorem raiseToMinimum_some {s : State} {w : Window} (h : s.windowInForce = some w) : raiseToMinimum s =
    if s.pacing.level < w.minimum then raiseAll .pressure { s with pacing.level := w.minimum } else s := by
  simp only [raiseToMinimum, h]
  split
  · next hlow =>
    have hne : ¬ w.minimum = s.pacing.level := Nat.ne_of_gt hlow
    rw [Nat.max_eq_right (Nat.le_of_lt hlow), setPressure, if_neg hne]
  · next hhigh => rw [Nat.max_eq_left (Nat.not_lt.1 hhigh), setPressure_same]

/-- Settles O37: the search for the window now active by its two outcomes, and its evaluation by `evalWindow_eq`. -/
theorem activeWindowIsLowestThatContainsNow : Obligations.ActiveWindowIsLowestThatContainsNow := by
  refine ⟨fun w t => containsNow_iff, fun s new h => ?_⟩
  have hnow : windowNow s = new := by
    rcases h with ⟨rfl, hnone⟩ | ⟨i, rfl, hi, hlow⟩
    · exact windowNow_none hnone
    · exact windowNow_some hi hlow
  have hforce := windowInForce_applied new (profileOfWindow s new) s
  rw [evalWindow_eq, hnow]
  cases new with
  | none => exact raiseToMinimum_none hforce
  | some i =>
    rw [raiseToMinimum_some hforce, setActiveProfile_level, chooseWindow_pacing]
    rfl

/-! The interval boundary (R112, R122 to R126). -/

theorem exec_intervalBoundary_idle {s : State} (h : s.resetLow = true ∨ s.pacing.boundaryDue = false) :
    exec .intervalBoundary s = .next s := by
  have hexec : exec .intervalBoundary s = execIntervalBoundary s := rfl
  rw [hexec, execIntervalBoundary]
  rcases h with h | h <;> simp [h]

theorem exec_intervalBoundary_due {s : State} (hl : s.resetLow = false) (hd : s.pacing.boundaryDue = true) :
    exec .intervalBoundary s = .next (paceBoundary s) := by
  have hexec : exec .intervalBoundary s = execIntervalBoundary s := rfl
  rw [hexec, execIntervalBoundary]
  simp [hl, hd]

theorem emergencyWaits_iff {s : State} (ht : TableBooks s) : s.emergencyWaits = true ↔
    ∃ (id : RecId) (r : CallRecord), s.rec? id = some r ∧ r.kind = .emergency ∧
      (r.isWaiting = true ∨ r.isCollecting = true) := by
  unfold State.emergencyWaits
  simp only [List.any_eq_true, Bool.and_eq_true, Bool.or_eq_true, beq_iff_eq, Prod.exists,
    State.rec?_eq_some ht.idsRise]

/-- A waiting emergency raises the level to 2 at least (R124). -/
theorem newLevel_eq (s : State) : newLevel s =
    let found := max (hysteresis s.activeThresholds (occupancy s.pool) s.pacing.level) s.minimumLevel
    if s.emergencyWaits = true then max 2 found else found := by
  unfold newLevel
  dsimp only
  by_cases hw : s.emergencyWaits = true
  · simp only [hw, and_true, if_true]
    split <;> omega
  · simp only [hw, and_false, if_false, Bool.false_eq_true]

/-- The sum over the classes of a set, taken one after the other. -/
theorem foldl_add_eq_sum (cs : List ClassId) (q : ClassId → Bool) (w : ClassId → Nat) (n : Nat) :
    cs.foldl (fun n c => if q c then n + w c else n) n = n + ((cs.filter q).map w).sum := by
  induction cs generalizing n with
  | nil => rfl
  | cons c rest ih =>
    rw [List.foldl_cons, ih]
    cases hc : q c
    · simp [hc]
    · simp [hc, Nat.add_assoc]

theorem weightSum_eq (s : State) :
    s.weightSum = (((List.finRange 16).filter s.inShareSet).map fun c => (s.activeRate c).weight).sum :=
  (foldl_add_eq_sum _ _ _ 0).trans (Nat.zero_add _)

theorem paceBoundary_class (s : State) (c : ClassId) : (paceBoundary s).pacing.classes[c] = closeInterval s c := by
  rw [paceBoundary_pacing, closedPacing_class]

/-- Stages 4 to 6 for a class of the share set, with the weights summed over the set (R125, R126). -/
theorem scaledShare_eq (s : State) (level : Nat) (c : ClassId) : scaledShare s level c =
    (s.pool.free - s.pool.feff) * (s.activeRate c).weight /
      (((List.finRange 16).filter s.inShareSet).map fun d => (s.activeRate d).weight).sum / 2 ^ level := by
  rw [← weightSum_eq]
  rfl

/-- Settles O44: the level by `newLevel_eq`, each allowance by the equation of its class's kind, mode and bars. -/
theorem boundaryComputesLevelAndAllowances : Obligations.BoundaryComputesLevelAndAllowances := by
  refine fun s => ⟨exec_intervalBoundary_idle, fun ht hl hd => ?_⟩
  intro q th up down l l1 l2 emergency inShare weights
  have hsteps : hysteresis s.activeThresholds (occupancy s.pool) s.pacing.level = l1 := by
    unfold hysteresis
    rw [reached_three, reached_three]
    rfl
  have hfound : max (hysteresis s.activeThresholds (occupancy s.pool) s.pacing.level) s.minimumLevel = l2 := by
    rw [hsteps]
    refine congrArg (max l1) ?_
    unfold State.minimumLevel State.windowInForce
    cases s.time.activeWindow <;> rfl
  have hlevel : newLevel s = if s.emergencyWaits = true then max 2 l2 else l2 := hfound ▸ newLevel_eq s
  refine ⟨newLevel s, paceBoundary s, exec_intervalBoundary_due hl hd, fun he => ?raised, fun he => ?found,
    fun c => ?classes, ?state⟩
  case raised => rw [hlevel, if_pos ((emergencyWaits_iff ht).2 he)]
  case found => rw [hlevel, if_neg (mt (emergencyWaits_iff ht).1 he)]
  case classes =>
    intro old new e paid trickle
    have hnew : new = closeInterval s c := paceBoundary_class s c
    rw [hnew]
    refine ⟨rfl, rfl, rfl, newAllowance_kept _, newAllowance_fixed _, fun hk hm => ⟨newAllowance_barred _ hk hm,
      newAllowance_trickle _ hk hm, fun hshare => ?_⟩⟩
    have hpaid : paid = scaledShare s (newLevel s) c / s.policy.classes[c].u := by rw [scaledShare_eq]; rfl
    rw [hpaid]
    exact newAllowance_shared _ hshare
  case state =>
    intro changed
    have hchanged : changed = { s with pacing := closedPacing s } := by
      dsimp only [changed]
      rw [paceBoundary_pacing]
      rfl
    rw [hchanged]
    exact paceBoundary_eq s

/-! Answers. -/

/-- A request that the engine takes is answered with what its execution leaves (R184). -/
theorem runRequest_answered {p : Port} {tag : Byte} {q : Request} {run : State → Executed} {s s1 t : State}
    {r : ResultCode} {bs : List Byte} (h : engineTake p tag q s = some s1) (hrun : run s1 = answered t r bs) :
    runRequest p tag q run s = .next (t.respond p r bs) := by
  rw [runRequest_taken h, hrun]
  rfl

theorem classOf?_eq {b : Byte} {c : ClassId} (h : b.toNat = c.val) : classOf? b = some c := by
  unfold classOf?
  rw [dif_pos (h ▸ c.isLt)]
  exact congrArg some (Fin.ext h)

theorem profileOf?_eq {b : Byte} {p : ProfileId} (h : b.toNat = p.val) : profileOf? b = some p := by
  unfold profileOf?
  rw [dif_pos (h ▸ p.isLt)]
  exact congrArg some (Fin.ext h)

theorem windowByteOf?_eq {b : Byte} {w : WindowId} (h : b.toNat = w.val) : windowByteOf? b = some w := by
  unfold windowByteOf?
  rw [dif_pos (h ▸ w.isLt)]
  exact congrArg some (Fin.ext h)

/-! Readings (R130, R149, R156, R193). -/

theorem runReadClass_eq {b : Byte} {c : ClassId} (s : State) (h : b.toNat = c.val) : runReadClass b s = answered s .done
    ([byteOf (s.policy.classes[c].kind.code * 64 + (s.activeRate c).mode.code * 16) ||| flagsByte (s.barFlags c)] ++
      numBytes2 s.pacing.classes[c].allowance ++ numBytes2 s.pacing.classes[c].closed ++
      numBytes2 s.table.classCount[c] ++ [byteOf s.pacing.countdown]) := by
  simp only [runReadClass, classOf?_eq h]
  rfl

theorem runReadPolicy_ok {a : ReadPolicyArgs} {s : State} {bs : List Byte} (h : policyItem a s = .ok bs) :
    runReadPolicy a s = answered s .done (bytes2 s.policy.generation ++ bs) := by
  simp only [runReadPolicy, h]
  rfl

section
variable {a : ReadPolicyArgs}

theorem policyItem_class {c : ClassId} (s : State) (h : a.item = 0) (hc : a.arg1.toNat = c.val) :
    policyItem a s = .ok (classBytes s.policy.classes[c]) := by
  simp [policyItem, h, classOf?_eq hc]

theorem policyItem_rate {pr : ProfileId} {c : ClassId} (s : State) (h : a.item = 1) (hp : a.arg1.toNat = pr.val)
    (hc : a.arg2.toNat = c.val) : policyItem a s = .ok (rateBytes s.policy.rates[pr][c]) := by
  simp [policyItem, h, profileOf?_eq hp, classOf?_eq hc]

theorem policyItem_thresholds {pr : ProfileId} (s : State) (h : a.item = 2) (hp : a.arg1.toNat = pr.val) :
    policyItem a s = .ok (thresholdBytes s.policy.thresholds[pr]) := by
  simp [policyItem, h, profileOf?_eq hp]

theorem policyItem_limits {pr : ProfileId} (s : State) (h : a.item = 3) (hp : a.arg1.toNat = pr.val) :
    policyItem a s = .ok (limitBytes s.policy.limits[pr]) := by
  simp [policyItem, h, profileOf?_eq hp]

theorem policyItem_base (s : State) (h : a.item = 4) :
    policyItem a s = .ok ([byteOf s.policy.base.val] ++ bytes2 s.policy.bars) := by
  simp [policyItem, h]

theorem policyItem_windowTiming {w : WindowId} (s : State) (h : a.item = 5) (hw : a.arg1.toNat = w.val)
    (hpart : a.arg2 = 0) :
    policyItem a s = .ok (windowTimingBytes s.policy.windows[w] ++ bytes4 s.policy.windows[w].start) := by
  simp [policyItem, h, windowByteOf?_eq hw, hpart]

theorem policyItem_windowEffects {w : WindowId} (s : State) (h : a.item = 5) (hw : a.arg1.toNat = w.val)
    (hpart : a.arg2 = 1) : policyItem a s =
      .ok ([byteOf s.policy.windows[w].profile.val, byteOf s.policy.windows[w].minimum] ++
        bytes2 s.policy.windows[w].bars) := by
  simp [policyItem, h, windowByteOf?_eq hw, hpart]

end

/-- Settles O30: each reading by the equation of what it reads, and READ_POLICY item by item. -/
theorem readingsChangeNothing : Obligations.ReadingsChangeNothing := by
  intro s s1 p tag
  refine ⟨fun b c hb h => ?reading, fun h => ?status, fun h => ?time, fun a h => ?policy⟩
  case reading => exact runRequest_answered h (runReadClass_eq s1 hb)
  case status => exact runRequest_answered h rfl
  case time =>
    have hticks : s1.time.ticks.extractLsb' 0 8 = s1.time.ticks.setWidth 8 :=
      (BitVec.setWidth_eq_extractLsb' (by decide)).symm
    refine runRequest_answered h ?_
    rw [← hticks]
    rfl
  case policy =>
    intro reads
    have answer : ∀ {bs : List Byte}, policyItem a s1 = .ok bs → reads bs :=
      fun hitem => runRequest_answered h (runReadPolicy_ok hitem)
    exact ⟨fun c hi hc => answer (policyItem_class s1 hi hc), fun pr c hi hp hc => answer (policyItem_rate s1 hi hp hc),
      fun pr hp => ⟨fun hi => answer (policyItem_thresholds s1 hi hp), fun hi => answer (policyItem_limits s1 hi hp)⟩,
      fun hi => answer (policyItem_base s1 hi),
      fun w hi hw => ⟨fun hpart => answer (policyItem_windowTiming s1 hi hw hpart),
        fun hpart => answer (policyItem_windowEffects s1 hi hw hpart)⟩⟩

/-! WRITE_RATES (R119, R136, R137, R144). -/

theorem guardRefusal_none {gen : Half} {s : State} (hl : s.isLocked = false) (hg : gen = s.policy.generation) :
    guardRefusal gen s = none := by
  simp only [guardRefusal, hl, hg, ne_eq, not_true_eq_false, Bool.false_eq_true, if_false]

theorem runWriteRates_accepted {p : Port} {a : WriteRatesArgs} {pr : ProfileId} {c : ClassId} {m : Mode} {s : State}
    (hp : profileOf? a.profile = some pr) (hc : classOf? a.cls = some c) (hm : modeOf? a.mode = some m)
    (hl : s.isLocked = false) (hg : a.gen = s.policy.generation) :
    runWriteRates p a s =
      let e := clampRate s.policy.classes[c].kind m a
      accepted p (storeRate pr c e s) (rateBytes e ++
        if pr = s.time.activeProfile then numBytes2 (storeRate pr c e s).pacing.classes[c].allowance else []) := by
  simp only [runWriteRates, hp, hc, hm, guardRefusal_none hl hg]

theorem accepted_eq (p : Port) (s : State) (bs : List Byte) : accepted p s bs =
    answered (raiseOthers p .policy { s with policy.generation := s.policy.generation + 1 }) .done
      (bytes2 (s.policy.generation + 1) ++ bs) := rfl

/-- Settles O33: the guards pass, and the entry is stored as `storeRate_eq` says. -/
theorem writeRatesStoresAndLoads : Obligations.WriteRatesStoresAndLoads := by
  intro s s1 p tag a pr c m h hp hc hm hl hg e k loaded stored
  have hentry : clampRate s1.policy.classes[c].kind m a = e := rfl
  have hshown :
      (if pr = s1.time.activeProfile then numBytes2 (storeRate pr c e s1).pacing.classes[c].allowance else []) =
        if pr = s1.time.activeProfile then numBytes2 loaded else [] := by
    by_cases hactive : pr = s1.time.activeProfile
    · rw [if_pos hactive, if_pos hactive, storeRate_eq]
      simp only [hactive, if_true, getElem_set_fin]
      rfl
    · rw [if_neg hactive, if_neg hactive]
  refine runRequest_answered h ((runWriteRates_accepted hp hc hm hl hg).trans ?_)
  dsimp only
  rw [hentry, hshown, accepted_eq, storeRate_eq, ← List.append_assoc]
  rfl

/-! The bars and REARM (R118, R147, R148). -/

theorem runBarClear_locked {p : Port} {mask : Half} {s : State} (h : s.isLocked = true) :
    runBarClear p mask s = answered s .locked (bytes2 s.policy.bars) := by
  simp only [runBarClear, h, if_true]
  rfl

theorem runBarClear_open {p : Port} {mask : Half} {s : State} (h : s.isLocked = false) : runBarClear p mask s =
    answered (setBars p (s.policy.bars &&& ~~~withoutEmergency s mask) s) .done
      (bytes2 (withoutEmergency s mask) ++ bytes2 (s.policy.bars &&& ~~~withoutEmergency s mask)) := by
  simp only [runBarClear, h, Bool.false_eq_true, if_false]

theorem runRearm_locked {b : Byte} {c : ClassId} {s : State} (hb : b.toNat = c.val) (h : s.isLocked = true) :
    runRearm b s = answered s .locked (bytes2 s.policy.generation ++ numBytes2 (windowCode s.time.activeWindow)) := by
  simp only [runRearm, classOf?_eq hb, h, if_true]
  rfl

/-- The exhausted flag of the answer is the one that has just been cleared (R118). -/
theorem runRearm_open {b : Byte} {c : ClassId} {s : State} (hb : b.toNat = c.val) (h : s.isLocked = false) :
    runRearm b s = answered (rearmClass c s) .done
      ([byteOf c.val] ++ numBytes2 (rearmClass c s).pacing.classes[c].allowance ++ [0]) := by
  have hcleared : (rearmClass c s).pacing.classes[c].exhausted = false := by
    unfold rearmClass
    rw [State.updPacing_self]
  simp only [runRearm, classOf?_eq hb, h, Bool.false_eq_true, if_false, hcleared]
  rfl

/-- Settles O38: the classes named by `inClasses_withoutEmergency`, and each request by the equation of its answer. -/
theorem barsAndRearm : Obligations.BarsAndRearm := by
  intro s s1 p tag mask
  refine ⟨⟨withoutEmergency s1 mask, inClasses_withoutEmergency s1 mask, fun h => runRequest_answered h rfl,
    fun h => ?clear⟩, fun b c hb h => ?rearm⟩
  case clear =>
    cases hl : s1.isLocked with
    | true => exact runRequest_answered h (runBarClear_locked hl)
    | false => exact runRequest_answered h (runBarClear_open hl)
  case rearm =>
    intro e k
    cases hl : s1.isLocked with
    | true => exact runRequest_answered h (runRearm_locked hb hl)
    | false =>
      have hk : (rearmClass c s1).pacing.classes[c] = k := State.updPacing_self s1 c _
      refine runRequest_answered h ((runRearm_open hb hl).trans ?_)
      rw [hk]
      rfl

end Sys2Proof.Machine.PacingAndPressure
end

section
/-! PROOFS. Class policy and profiles (07_class_policy_and_profiles.md): what the commands leave of the policy image and
the time base, the outcomes of a guarded write, and the statements of chapter 7. -/

namespace Sys2Proof.Machine.PolicyAndProfiles

open PacingAndPressure

/-! The commands that write neither the policy image nor the time base. -/

/-- The settings of the part, which are its policy image and its time base, are the same. -/
structure SettingsKept (s t : State) : Prop where
  policy : t.policy = s.policy
  time : t.time = s.time

namespace SettingsKept

theorem refl (s : State) : SettingsKept s s := ⟨rfl, rfl⟩

theorem trans {s t u : State} (h : SettingsKept s t) (k : SettingsKept t u) : SettingsKept s u :=
  ⟨k.policy.trans h.policy, k.time.trans h.time⟩

theorem of_untouched {s t : State} (h : Untouched s t) : SettingsKept s t := ⟨h.policy, h.time⟩

theorem updPort (s : State) (p : Port) (f : PortState → PortState) : SettingsKept s (s.updPort p f) := ⟨rfl, rfl⟩

/-! Admission (R45, R49, R52, R54, R56). -/

theorem consume (c : ClassId) (k : Kind) (s : State) : SettingsKept s (consume c k s) := by
  by_cases hk : k = .general
  · subst hk
    by_cases hlast : (s.activeRate c).mode = .oneshot ∧ s.pacing.classes[c].allowance = 1
    · rw [Admission.consume_last hlast]
      exact ⟨rfl, rfl⟩
    · rw [Admission.consume_more hlast]
      exact ⟨rfl, rfl⟩
  · rw [Admission.consume_other s hk]
    exact .refl s

theorem admitDirectly (p : Port) (ref : Half) (c : ClassId) (e : ClassEntry) (s : State) :
    SettingsKept s (admitDirectly p ref c e s).state := by
  refine SettingsKept.trans ?_ (.of_untouched (.evalExhausted _))
  refine SettingsKept.trans ?_ (.consume c e.kind _)
  exact ⟨rfl, rfl⟩

theorem admitCollecting (p : Port) (ref : Half) (c : ClassId) (e : ClassEntry) (victims : List RecId) (s : State) :
    SettingsKept s (admitCollecting p ref c e victims s).state := by
  refine SettingsKept.trans ?_ (.of_untouched (.makeCollector _ _ _ _ _))
  exact ⟨rfl, rfl⟩

theorem admitWaiting (p : Port) (ref : Half) (c : ClassId) (e : ClassEntry) (s : State) :
    SettingsKept s (admitWaiting p ref c e s).state := by
  refine SettingsKept.trans ?_ (.consume c e.kind _)
  exact ⟨rfl, rfl⟩

theorem admitPlace (p : Port) (a : AdmitArgs) (c : ClassId) (e : ClassEntry) (s : State) :
    SettingsKept s (admitPlace p a c e s).state := by
  unfold Machine.admitPlace admitWaitOrRefuse
  dsimp only
  split
  · exact .admitDirectly p a.ref c e s
  · split
    · exact .admitCollecting p a.ref c e _ s
    · split
      · exact .admitWaiting p a.ref c e s
      · split <;> exact .refl s

theorem admitChecked (p : Port) (a : AdmitArgs) (c : ClassId) (e : ClassEntry) (s : State) :
    SettingsKept s (admitChecked p a c e s).state := by
  unfold Machine.admitChecked
  split
  · exact .refl s
  · split
    · exact .refl s
    · split
      · exact .refl s
      · split
        · exact .refl s
        · exact .admitPlace p a c e s

theorem runAdmit (p : Port) (a : AdmitArgs) (s : State) : SettingsKept s (runAdmit p a s).state := by
  unfold Machine.runAdmit
  split
  · exact .refl s
  · dsimp only
    split
    · exact .refl s
    · refine SettingsKept.trans ?_ (.admitChecked p a _ _ _)
      exact ⟨rfl, rfl⟩

/-! The requests that name a record, the notices and the capacity (chapters 1, 2, 4 and 9). -/

theorem named_refused {p : Port} {a : RecordArgs} {s : State} {e : Executed} (h : named p a s = .refused e) :
    SettingsKept s e.state := by
  unfold named at h
  repeat' split at h
  all_goals cases h
  all_goals exact .refl s

theorem runRelease (p : Port) (a : RecordArgs) (s : State) : SettingsKept s (runRelease p a s).state := by
  unfold Machine.runRelease
  split
  · next h => exact .named_refused h
  · unfold releaseFound
    split
    · exact .of_untouched (.releaseRecord s _ _)
    · exact .of_untouched (.releaseRecord s _ _)
    · exact .of_untouched (.freeRecord s _)
    all_goals exact .refl s

theorem runCancel (p : Port) (a : RecordArgs) (s : State) : SettingsKept s (runCancel p a s).state := by
  unfold Machine.runCancel
  split
  · next h => exact .named_refused h
  · unfold cancelFound
    split
    · exact .of_untouched (.withdrawRecord s _ _)
    · exact .of_untouched (.withdrawRecord s _ _)
    · exact .of_untouched (.freeRecord s _)
    all_goals exact .refl s

theorem runSettle (p : Port) (a : RecordArgs) (s : State) : SettingsKept s (runSettle p a s).state := by
  unfold Machine.runSettle
  split
  · next h => exact .named_refused h
  · unfold settleFound
    dsimp only
    split
    · exact .of_untouched (.endSetup s _ _)
    · exact .of_untouched (.endSetup s _ _)
    · exact .refl s

theorem runQuery (id : Half) (s : State) : SettingsKept s (runQuery id s).state := by
  unfold Machine.runQuery
  split
  · exact .refl s
  · split <;> exact .refl s

theorem runFetchNotice (p : Port) (s : State) : SettingsKept s (runFetchNotice p s).state := by
  unfold Machine.runFetchNotice
  split
  · exact .refl s
  · split
    · exact .refl s
    · split
      · exact .refl s
      · dsimp only [answered]
        split
        · exact .of_untouched (.freeRecord s _)
        · exact ⟨rfl, rfl⟩

theorem runReadClass (b : Byte) (s : State) : SettingsKept s (runReadClass b s).state := by
  unfold Machine.runReadClass
  split <;> exact .refl s

theorem runReadPolicy (a : ReadPolicyArgs) (s : State) : SettingsKept s (runReadPolicy a s).state := by
  unfold Machine.runReadPolicy
  split <;> exact .refl s

theorem runRearm (b : Byte) (s : State) : SettingsKept s (runRearm b s).state := by
  unfold Machine.runRearm
  split
  · exact .refl s
  · split
    · exact .refl s
    · exact ⟨rfl, rfl⟩

theorem writeTarget (t : Nat) (s : State) : SettingsKept s (writeTarget t s) := by
  unfold Machine.writeTarget
  refine SettingsKept.trans ?_ (.of_untouched (.evalExhausted _))
  split
  · unfold raiseCapacity
    refine SettingsKept.trans ?_ (.of_untouched ((Untouched.refloor _).trans (.distribute _ _ _)))
    exact ⟨rfl, rfl⟩
  · unfold cutCapacity
    refine SettingsKept.trans ?_ (.of_untouched (.refloor _))
    exact ⟨rfl, rfl⟩

/-! The engine, the ports and the interval boundary (R112, R180 to R192). -/

theorem startTransaction (p : Port) (s : State) : SettingsKept s (startTransaction p s) := by
  unfold Machine.startTransaction
  dsimp only
  split
  · exact .refl s
  · exact .updPort s p _

theorem claim {p : Port} {tag : Byte} {q : Request} {s s1 : State} (h : claim p tag q s = some s1) :
    SettingsKept s s1 := by
  rw [claim_pointer h]
  exact ⟨rfl, rfl⟩

theorem engineTake {p : Port} {tag : Byte} {q : Request} {s s1 : State} (h : engineTake p tag q s = some s1) :
    SettingsKept s s1 := by
  unfold Machine.engineTake at h
  split at h
  · exact .claim h
  · split at h
    · exact ((SettingsKept.startTransaction p s).trans (.updPort _ p _)).trans (.claim h)
    · exact absurd h (by simp)

theorem finishIfDone (p : Port) (s : State) : SettingsKept s (finishIfDone p s) := by
  unfold Machine.finishIfDone
  split
  · exact .updPort s p _
  · exact .refl s

theorem resetRecord (id : RecId) (r : CallRecord) (s : State) : SettingsKept s (resetRecord id r s) := by
  unfold Machine.resetRecord
  split
  · exact .of_untouched (.releaseRecord s id r)
  · exact .of_untouched (.releaseRecord s id r)
  · exact .of_untouched (.withdrawRecord s id r)
  · exact .of_untouched (.withdrawRecord s id r)
  · exact .of_untouched (.freeRecord s id)
  · exact .of_untouched (.freeRecord s id)

theorem resetNext (p : Port) (s : State) : SettingsKept s (resetNext p s) := by
  unfold Machine.resetNext
  split
  · exact .refl s
  · split
    · exact .refl s
    · exact .resetRecord _ _ s

theorem paceBoundary (s : State) : SettingsKept s (paceBoundary s) := ⟨paceBoundary_policy s, paceBoundary_time s⟩

end SettingsKept

/-! Commands as a whole. -/

/-- Where an outcome is a next state, that state has the property. -/
def LeadsTo (P : State → Prop) (o : Host.Outcome State Fault Refusal) : Prop := ∀ t : State, o = .next t → P t

/-- A property that depends on the policy image and the time base alone. -/
def OfSettings (P : State → Prop) : Prop := ∀ s t : State, SettingsKept s t → P s → P t

theorem ofSettings_kept (s : State) : OfSettings (SettingsKept s) := fun _ _ h hs => hs.trans h

namespace LeadsTo
variable {P : State → Prop} {s : State}

theorem next (h : P s) : LeadsTo P (.next s) := by
  rintro _ ⟨⟩
  exact h

/-- An event whose condition does not stand changes nothing (log 3). -/
theorem idleIf {b : Prop} [Decidable b] {o : Host.Outcome State Fault Refusal} (hs : P s) (h : LeadsTo P o) :
    LeadsTo P (if b then .next s else o) := by
  split
  · exact .next hs
  · exact h

theorem ifDue {b : Prop} [Decidable b] {t : State} (hs : P s) (ht : P t) :
    LeadsTo P (if b then .next t else .next s) := by
  split
  · exact .next ht
  · exact .next hs

/-- The transaction, the choice and the answer of a request leave the settings to its execution. -/
theorem runRequest {p : Port} {tag : Byte} {q : Request} {run : State → Executed} (hP : OfSettings P) (hs : P s)
    (h : ∀ s1 : State, P s1 → P (run s1).state) : LeadsTo P (runRequest p tag q run s) := by
  cases htake : engineTake p tag q s with
  | none => rw [runRequest_idle htake]; exact .next hs
  | some s1 =>
    rw [runRequest_taken htake]
    exact .next (hP _ _ (.updPort _ p _) (h s1 (hP _ _ (.engineTake htake) hs)))

/-- A request keeps the settings when its execution does. -/
theorem request {p : Port} {tag : Byte} {q : Request} {run : State → Executed}
    (h : ∀ s1 : State, SettingsKept s1 (run s1).state) : LeadsTo (SettingsKept s) (Machine.runRequest p tag q run s) :=
  .runRequest (ofSettings_kept s) (.refl s) fun s1 hs1 => hs1.trans (h s1)

theorem portClear (p : Port) (tag : Byte) (s : State) : LeadsTo (SettingsKept s) (execPortClear p tag s) := by
  unfold execPortClear
  split
  · exact .next (.refl s)
  · next h => exact .next (((SettingsKept.engineTake h).trans (.updPort _ p _)).trans (.finishIfDone p _))

theorem setupTimerExpiry (id : RecId) (s : State) : LeadsTo (SettingsKept s) (execSetupTimerExpiry id s) := by
  refine .idleIf (.refl s) ?_
  split
  · exact .next (.refl s)
  · exact .ifDue (.refl s) (.of_untouched (.endSetup s id _))

theorem graceExpiry (id : RecId) (s : State) : LeadsTo (SettingsKept s) (execGraceExpiry id s) := by
  refine .idleIf (.refl s) ?_
  split
  · exact .next (.refl s)
  · split
    · exact .next (.of_untouched (.reclaim s id _ _))
    · exact .next (.refl s)

theorem deadlineExpiry (id : RecId) (s : State) : LeadsTo (SettingsKept s) (execDeadlineExpiry id s) := by
  refine .idleIf (.refl s) ?_
  split
  · exact .next (.refl s)
  · exact .ifDue (.refl s) (.of_untouched (.expireWait s id _))

end LeadsTo

/-- The commands that may write the policy image or the time base: the guarded writes, the bar requests, SET_TIME, and
the events of the time base and of the reset of the part. -/
def writesSettings : Instr → Bool
  | .writeClass _ _ _ | .writeRates _ _ _ | .writeThresholds _ _ _ | .writeLimits _ _ _ | .selectProfile _ _ _
  | .writeWindow _ _ _ | .writeWindowBars _ _ _ | .barSet _ _ _ | .barClear _ _ _ | .setTime _ _ _ | .tick
  | .secondBoundary | .powerOnReset => true
  | _ => false

/-- Every other command leaves the policy image and the time base as they are. -/
theorem exec_settingsKept (i : Instr) (s : State) (hi : writesSettings i = false) :
    LeadsTo (SettingsKept s) (exec i s) := by
  cases i with
  | writeClass | writeRates | writeThresholds | writeLimits | selectProfile | writeWindow | writeWindowBars | barSet
  | barClear | setTime | tick | secondBoundary | powerOnReset => cases hi
  | admitCall p tag a => exact .request (.runAdmit p a)
  | release p tag a => exact .request (.runRelease p a)
  | cancel p tag a => exact .request (.runCancel p a)
  | settle p tag a => exact .request (.runSettle p a)
  | query p tag id => exact .request (.runQuery id)
  | fetchNotice p tag => exact .request (.runFetchNotice p)
  | readEvents p tag => exact .request fun _ => ⟨rfl, rfl⟩
  | setEnables p tag mask => exact .request fun _ => ⟨rfl, rfl⟩
  | readClass p tag cls => exact .request (.runReadClass cls)
  | readPolicy p tag a => exact .request (.runReadPolicy a)
  | readPool | readStatus | readTime | readIdent | unknownRequestCode => exact .request .refl
  | rearm p tag cls => exact .request (.runRearm cls)
  | writeCapacity p tag target => exact .request (.writeTarget _)
  | portClear p tag => exact .portClear p tag s
  | transactionStart p => exact .next (.startTransaction p s)
  | transactionEnd p clocks f => exact .next (.updPort s p _)
  | portReset p =>
    exact .idleIf (.refl s) (.idleIf (.updPort s p _) (.next ((SettingsKept.updPort s p _).trans (.finishIfDone p _))))
  | portResetRecord p =>
    exact .idleIf (.refl s) (.ifDue (.refl s) ((SettingsKept.resetNext p s).trans (.finishIfDone p _)))
  | portResetRelease p => exact .next (.updPort s p _)
  | resetAssert => exact .next ⟨rfl, rfl⟩
  | setupTimerExpiry id => exact .setupTimerExpiry id s
  | graceExpiry id => exact .graceExpiry id s
  | deadlineExpiry id => exact .deadlineExpiry id s
  | intervalBoundary => exact .idleIf (.refl s) (.ifDue (.refl s) (.paceBoundary s))
  | waitListBoundaryWork => exact .idleIf (.refl s) (.ifDue (.refl s) (.of_untouched (.boundaryWork s)))

/-! Argument ranges (R187). -/

theorem classOf?_isSome (b : Byte) : decide (b.toNat < 16) = (classOf? b).isSome := by
  unfold classOf?
  split <;> simp_all

theorem profileOf?_isSome (b : Byte) : decide (b.toNat < 4) = (profileOf? b).isSome := by
  unfold profileOf?
  split <;> simp_all

theorem windowOf?_isSome (b : BitVec 4) : decide (b.toNat < 8) = (windowOf? b).isSome := by
  unfold windowOf?
  split <;> simp_all

theorem windowProfileOf?_isSome (b : BitVec 4) : decide (b.toNat < 4) = (windowProfileOf? b).isSome := by
  unfold windowProfileOf?
  split <;> simp_all

theorem kindOf?_isSome (b : Byte) : decide (b.toNat < 4) = (kindOf? b).isSome := by
  unfold kindOf?
  generalize b.toNat = n
  match n with
  | 0 | 1 | 2 | 3 => rfl
  | m + 4 => exact decide_eq_false (by omega)

theorem modeOf?_isSome (b : BitVec 4) : decide (b.toNat < 3) = (modeOf? b).isSome := by
  unfold modeOf?
  generalize b.toNat = n
  match n with
  | 0 | 1 | 2 => rfl
  | m + 3 => exact decide_eq_false (by omega)

/-! Guarded writes (R142 to R144, R187). -/

/-- The outcomes of a guarded write of generation `gen`: an argument is out of range, a guard refuses it, the guards
pass and it changes nothing, or what it stores is accepted. -/
inductive GuardedOutcome (p : Port) (q : Request) (gen : Half) (stored : State → Prop) (s : State) : Executed → Prop
  | badRequest (k : Nat) (h : q.firstBadByte? = some k) : GuardedOutcome p q gen stored s (badRequest s k)
  | refused (e : Executed) (h : guardRefusal gen s = some e) : GuardedOutcome p q gen stored s e
  | unchanged (r : ResultCode) (bs : List Byte) (h : guardRefusal gen s = none) :
      GuardedOutcome p q gen stored s (unchanged s r bs)
  | accepted (t : State) (bs : List Byte) (h : guardRefusal gen s = none) (ht : stored t) :
      GuardedOutcome p q gen stored s (accepted p t bs)

section
variable (p : Port) (s : State)

theorem runWriteClass_outcome (a : WriteClassArgs) : GuardedOutcome p (.writeClass a) a.gen
    (fun t => ∃ c e, t = storeClass c e s) s (runWriteClass p a s) := by
  have hbad : Request.firstBadByte? (.writeClass a) =
      firstOut [(4, (classOf? a.cls).isSome), (5, (kindOf? a.kind).isSome)] := by
    rw [← classOf?_isSome, ← kindOf?_isSome]
    rfl
  unfold runWriteClass
  split
  · next hc => exact .badRequest 4 (by rw [hbad, hc]; rfl)
  · next hc hk => exact .badRequest 5 (by rw [hbad, hc, hk]; rfl)
  · split
    · next e he => exact .refused e he
    · next hpass =>
      split
      · exact .unchanged _ _ hpass
      · exact .accepted _ _ hpass ⟨_, _, rfl⟩

theorem runWriteRates_outcome (a : WriteRatesArgs) : GuardedOutcome p (.writeRates a) a.gen
    (fun t => ∃ pr c e, t = storeRate pr c e s) s (runWriteRates p a s) := by
  have hbad : Request.firstBadByte? (.writeRates a) =
      firstOut [(4, (profileOf? a.profile).isSome), (5, (classOf? a.cls).isSome), (9, (modeOf? a.mode).isSome)] := by
    rw [← profileOf?_isSome, ← classOf?_isSome, ← modeOf?_isSome]
    rfl
  unfold runWriteRates
  split
  · next hp => exact .badRequest 4 (by rw [hbad, hp]; rfl)
  · next hp hc => exact .badRequest 5 (by rw [hbad, hp, hc]; rfl)
  · next hp hc hm => exact .badRequest 9 (by rw [hbad, hp, hc, hm]; rfl)
  · split
    · next e he => exact .refused e he
    · next hpass => exact .accepted _ _ hpass ⟨_, _, _, rfl⟩

theorem runWriteThresholds_outcome (a : WriteThresholdsArgs) : GuardedOutcome p (.writeThresholds a) a.gen
    (fun t => ∃ (pr : ProfileId) (x : Thresholds), t = { s with policy.thresholds := s.policy.thresholds.set pr x }) s
    (runWriteThresholds p a s) := by
  have hbad : Request.firstBadByte? (.writeThresholds a) = firstOut [(4, (profileOf? a.profile).isSome)] := by
    rw [← profileOf?_isSome]
    rfl
  unfold runWriteThresholds
  split
  · next hp => exact .badRequest 4 (by rw [hbad, hp]; rfl)
  · next pr _ =>
    split
    · next e he => exact .refused e he
    · next hpass => exact .accepted _ _ hpass ⟨pr, clampThresholds a, rfl⟩

theorem runWriteLimits_outcome (a : WriteLimitsArgs) : GuardedOutcome p (.writeLimits a) a.gen
    (fun t => ∃ pr l, t = storeLimits pr l s) s (runWriteLimits p a s) := by
  have hbad : Request.firstBadByte? (.writeLimits a) = firstOut [(4, (profileOf? a.profile).isSome)] := by
    rw [← profileOf?_isSome]
    rfl
  unfold runWriteLimits
  split
  · next hp => exact .badRequest 4 (by rw [hbad, hp]; rfl)
  · split
    · next e he => exact .refused e he
    · next hpass => exact .accepted _ _ hpass ⟨_, _, rfl⟩

theorem runSelectProfile_outcome (a : SelectProfileArgs) : GuardedOutcome p (.selectProfile a) a.gen
    (fun t => ∃ pr, t = storeBase pr s) s (runSelectProfile p a s) := by
  have hbad : Request.firstBadByte? (.selectProfile a) = firstOut [(4, (profileOf? a.profile).isSome)] := by
    rw [← profileOf?_isSome]
    rfl
  unfold runSelectProfile
  split
  · next hp => exact .badRequest 4 (by rw [hbad, hp]; rfl)
  · split
    · next e he => exact .refused e he
    · next hpass => exact .accepted _ _ hpass ⟨_, rfl⟩

theorem runWriteWindow_outcome (a : WriteWindowArgs) : GuardedOutcome p (.writeWindow a) a.gen
    (fun t => ∃ i w, t = storeWindow i w s) s (runWriteWindow p a s) := by
  have hbad : Request.firstBadByte? (.writeWindow a) =
      firstOut [(4, (windowOf? a.window).isSome), (11, (windowProfileOf? a.profile).isSome)] := by
    rw [← windowOf?_isSome, ← windowProfileOf?_isSome]
    rfl
  unfold runWriteWindow
  split
  · next hi => exact .badRequest 4 (by rw [hbad, hi]; rfl)
  · next hi hp => exact .badRequest 11 (by rw [hbad, hi, hp]; rfl)
  · split
    · next e he => exact .refused e he
    · next hpass => exact .accepted _ _ hpass ⟨_, _, rfl⟩

theorem runWriteWindowBars_outcome (a : WriteWindowBarsArgs) : GuardedOutcome p (.writeWindowBars a) a.gen
    (fun t => ∃ i w, t = storeWindow i w s) s (runWriteWindowBars p a s) := by
  have hbad : Request.firstBadByte? (.writeWindowBars a) = firstOut [(4, (windowOf? a.window).isSome)] := by
    rw [← windowOf?_isSome]
    rfl
  unfold runWriteWindowBars
  split
  · next hi => exact .badRequest 4 (by rw [hbad, hi]; rfl)
  · split
    · next e he => exact .refused e he
    · next hpass => exact .accepted _ _ hpass ⟨_, _, rfl⟩

end

/-- A guarded write that is not accepted changes nothing. -/
theorem GuardedOutcome.state_cases {p : Port} {q : Request} {gen : Half} {stored : State → Prop} {s : State}
    {e : Executed} (h : GuardedOutcome p q gen stored s e) :
    e.state = s ∨ ∃ t, stored t ∧ e.state = acceptWrite p t := by
  cases h with
  | badRequest => exact .inl rfl
  | refused _ he => exact .inl (guardRefusal_state he)
  | unchanged => exact .inl rfl
  | accepted t _ _ ht => exact .inr ⟨t, ht, rfl⟩

/-! The time of day and the active profile (R132, R152 to R155, R160, R161). -/

/-- The time base is in range, and the active profile follows the active window (R132, R152, R153). -/
structure TimeBooks (s : State) : Prop where
  range : TimeInRange s.time
  follows : ProfileFollows s

/-- The books speak of the time base, the base profile and the windows alone. -/
theorem timeBooks_congr {s t : State} (h : TimeBooks s) (htime : t.time = s.time)
    (hbase : t.policy.base = s.policy.base) (hwindows : t.policy.windows = s.policy.windows) : TimeBooks t where
  range := htime ▸ h.range
  follows := by
    have hfollows := h.follows
    unfold ProfileFollows profileOfWindow at hfollows ⊢
    rw [htime, hbase, hwindows]
    exact hfollows

theorem ofSettings_timeBooks : OfSettings TimeBooks := fun _ _ h hs =>
  timeBooks_congr hs h.time (congrArg Policy.base h.policy) (congrArg Policy.windows h.policy)

theorem timeInRange_of_running {t : TimeBase} (hr : t.state = .running) (hticks : t.tickInSecond ≤ 99)
    (hslew : -Config.slewMax ≤ t.slew ∧ t.slew ≤ Config.slewMax) : TimeInRange t :=
  ⟨fun hu => absurd (hr.symm.trans hu) (by decide), hticks, hslew⟩

/-- No window contains an unset time (R159). -/
theorem windowNow_unset {s : State} (h : s.time.state = .unset) : windowNow s = none := by
  refine windowNow_none fun i => Bool.eq_false_iff.2 fun hi => ?_
  obtain ⟨-, hrunning, -⟩ := containsNow_iff.1 hi
  exact absurd (h.symm.trans hrunning) (by decide)

@[simp] theorem evalWindow_time (s : State) : (evalWindow s).time =
    { s.time with activeWindow := windowNow s, activeProfile := profileOfWindow s (windowNow s) } := by
  rw [evalWindow_eq, raiseToMinimum_eq]
  simp only [setPressure_time, setActiveProfile_time, chooseWindow_time]

/-- An evaluation of the window makes the profile follow it, whatever the profile was before (R161). -/
theorem timeBooks_evalWindow {s : State} (h : TimeInRange s.time) : TimeBooks (evalWindow s) where
  range := by
    rw [evalWindow_time]
    refine ⟨fun hu => ?_, h.ticks, h.slew⟩
    obtain ⟨hseconds, hticks, hslew, -, hdue⟩ := h.unset hu
    exact ⟨hseconds, hticks, hslew, windowNow_unset hu, hdue⟩
  follows := by
    unfold ProfileFollows
    simp only [profileOfWindow, evalWindow_time, evalWindow_policy]

/-- The base profile becomes active where no window is (R141). -/
theorem timeBooks_storeBase {pr : ProfileId} {s : State} (h : TimeBooks s) : TimeBooks (storeBase pr s) := by
  have hfollows := h.follows
  unfold storeBase
  dsimp only
  cases hw : s.time.activeWindow with
  | none =>
    simp only [Option.isNone_none, if_true]
    constructor
    · rw [setActiveProfile_time]
      exact ⟨h.range.unset, h.range.ticks, h.range.slew⟩
    · unfold ProfileFollows
      simp only [profileOfWindow, setActiveProfile_time, setActiveProfile_policy, hw]
  | some i =>
    simp only [Option.isNone_some, Bool.false_eq_true, if_false]
    refine ⟨h.range, ?_⟩
    unfold ProfileFollows at hfollows ⊢
    simpa only [profileOfWindow, hw] using hfollows

theorem timeBooks_storeClass {c : ClassId} {e : ClassEntry} {s : State} (h : TimeBooks s) :
    TimeBooks (storeClass c e s) := by
  unfold storeClass
  dsimp only
  split <;> exact timeBooks_congr h rfl rfl rfl

theorem timeBooks_storeLimits {pr : ProfileId} {l : Limits} {s : State} (h : TimeBooks s) :
    TimeBooks (storeLimits pr l s) := by
  have hstored : TimeBooks { s with policy.limits := s.policy.limits.set pr l } := timeBooks_congr h rfl rfl rfl
  unfold storeLimits
  dsimp only
  split
  · exact ofSettings_timeBooks _ _ (.of_untouched ((Untouched.refloor _).trans (.evalExhausted _))) hstored
  · exact hstored

/-- A second absorbs at most one tick of slew, and the remainder stays within 200 ticks (R153, log 7). -/
theorem slewAfter_bounds (e : SecondEnd) {n : Int} (h : -Config.slewMax ≤ n ∧ n ≤ Config.slewMax) :
    -Config.slewMax ≤ slewAfter e n ∧ slewAfter e n ≤ Config.slewMax := by
  unfold slewAfter Config.slewMax at *
  cases e with
  | full => exact h
  | short => dsimp only; split <;> omega
  | held => dsimp only; split <;> omega

/-- A second that is due has ended while RUNNING (R152). -/
theorem running_of_due {t : TimeBase} {e : SecondEnd} (h : TimeInRange t) (hd : t.secondDue = some e) :
    t.state = .running := by
  cases hs : t.state with
  | running => rfl
  | unset =>
    obtain ⟨-, -, -, -, hnone⟩ := h.unset hs
    exact absurd (hd.symm.trans hnone) (by simp)

theorem timeBooks_takeSecond {e : SecondEnd} {s : State} (h : TimeBooks s) (hd : s.time.secondDue = some e) :
    TimeBooks (takeSecond e s) := by
  have hrunning := running_of_due h.range hd
  exact timeBooks_evalWindow (timeInRange_of_running hrunning (Nat.zero_le 99) (slewAfter_bounds e h.range.slew))

theorem timeBooks_loadTime (seconds : BitVec 32) {ticks : Nat} (s : State) (hticks : ticks ≤ 99) :
    TimeBooks (loadTime seconds ticks s) := by
  have hzero : -Config.slewMax ≤ 0 ∧ 0 ≤ Config.slewMax := by decide
  exact timeBooks_evalWindow (timeInRange_of_running rfl hticks hzero)

theorem timeBooks_setTimeOfDay (seconds : BitVec 32) {ticks : Nat} {s : State} (hticks : ticks ≤ 99)
    (h : TimeBooks s) : TimeBooks (setTimeOfDay seconds ticks s) := by
  unfold setTimeOfDay
  split
  · exact timeBooks_loadTime seconds s hticks
  · next hr =>
    dsimp only
    split
    · next hslew => exact ⟨timeInRange_of_running hr h.range.ticks hslew, h.follows⟩
    · exact timeBooks_loadTime seconds s hticks

/-- What a tick of the time of day leaves alone, and the bound of the tick-in-second (R152, R153). -/
theorem tickSecond_frame {t : TimeBase} (h : t.tickInSecond ≤ 99) :
    t.tickSecond.state = t.state ∧ t.tickSecond.slew = t.slew ∧ t.tickSecond.tickInSecond ≤ 99 := by
  unfold TimeBase.tickSecond
  split
  · exact ⟨rfl, rfl, h⟩
  · split
    · next hlow => exact ⟨rfl, rfl, Nat.le_trans hlow (by decide)⟩
    · split
      · split
        · exact ⟨rfl, rfl, h⟩
        · exact ⟨rfl, rfl, Nat.le_refl 99⟩
      · split
        · exact ⟨rfl, rfl, h⟩
        · split <;> exact ⟨rfl, rfl, h⟩

theorem timeInRange_tick {t : TimeBase} (h : TimeInRange t) : TimeInRange t.tick := by
  unfold TimeBase.tick
  dsimp only
  split
  · exact ⟨h.unset, h.ticks, h.slew⟩
  · next hr =>
    obtain ⟨hstate, hslew, hticks⟩ := tickSecond_frame (t := { t with ticks := t.ticks + 1 }) h.ticks
    exact timeInRange_of_running (hstate.trans hr) hticks (by rw [hslew]; exact h.slew)

theorem SettingsKept.tickCountdown (s : State) : SettingsKept s (tickCountdown s) := by
  unfold Machine.tickCountdown
  split <;> exact ⟨rfl, rfl⟩

@[simp] theorem tickAll_policy (s : State) : (tickAll s).policy = s.policy := (SettingsKept.tickCountdown s).policy

@[simp] theorem tickAll_time (s : State) : (tickAll s).time = s.time.tick :=
  congrArg TimeBase.tick (SettingsKept.tickCountdown s).time

theorem timeBooks_tickAll {s : State} (h : TimeBooks s) : TimeBooks (tickAll s) where
  range := tickAll_time s ▸ timeInRange_tick h.range
  follows := by
    have hfollows := h.follows
    obtain ⟨hprofile, hwindow⟩ := tick_active s.time
    unfold ProfileFollows profileOfWindow at hfollows ⊢
    rw [tickAll_policy, tickAll_time, hprofile, hwindow]
    exact hfollows

theorem timeBooks_reset : TimeBooks State.reset := ⟨⟨by decide, by decide, by decide⟩, rfl⟩

/-! The bar requests (R147, R148). -/

/-- Of the policy image only the manual bar set may differ, and the time base is the same. -/
structure BarsAlone (s t : State) : Prop where
  policy : t.policy = { s.policy with bars := t.policy.bars }
  time : t.time = s.time

theorem BarsAlone.setBars (p : Port) (bars : ClassSet) (s : State) : BarsAlone s (setBars p bars s) := by
  unfold Machine.setBars
  split <;> exact ⟨rfl, rfl⟩

theorem BarsAlone.runBarClear (p : Port) (mask : Half) (s : State) : BarsAlone s (runBarClear p mask s).state := by
  unfold Machine.runBarClear
  split
  · exact ⟨rfl, rfl⟩
  · exact .setBars p _ s

theorem BarsAlone.trans {s t u : State} (h : BarsAlone s t) (k : BarsAlone t u) : BarsAlone s u := by
  refine ⟨?_, k.time.trans h.time⟩
  have hpolicy := k.policy
  rw [h.policy] at hpolicy
  exact hpolicy

theorem ofSettings_barsAlone (s : State) : OfSettings (BarsAlone s) := fun _ _ h hs =>
  hs.trans ⟨by rw [h.policy], h.time⟩

namespace LeadsTo

/-- A bar request changes no more of the settings than its execution does. -/
theorem barRequest {p : Port} {tag : Byte} {q : Request} {run : State → Executed} {s : State}
    (h : ∀ s1 : State, BarsAlone s1 (run s1).state) : LeadsTo (BarsAlone s) (Machine.runRequest p tag q run s) :=
  .runRequest (ofSettings_barsAlone s) ⟨rfl, rfl⟩ fun s1 hs1 => hs1.trans (h s1)

/-- A guarded write that is refused changes nothing, and one that is accepted leaves the time base to what it stores. -/
theorem guardedWrite {p : Port} {tag : Byte} {q : Request} {gen : Half} {run : State → Executed}
    {stored : State → State → Prop} {s : State} (hs : TimeBooks s)
    (hrun : ∀ s1 : State, GuardedOutcome p q gen (stored s1) s1 (run s1))
    (h : ∀ s1 t : State, TimeBooks s1 → stored s1 t → TimeBooks t) :
    LeadsTo TimeBooks (Machine.runRequest p tag q run s) := by
  refine .runRequest ofSettings_timeBooks hs fun s1 hs1 => ?_
  rcases (hrun s1).state_cases with hsame | ⟨t, ht, haccepted⟩
  · rw [hsame]
    exact hs1
  · rw [haccepted]
    exact timeBooks_congr (h s1 t hs1 ht) rfl rfl rfl

end LeadsTo

/-! Every step keeps the time (R132, R152, R153, R161). -/

theorem exec_barSet (p : Port) (tag : Byte) (mask : Half) (s : State) :
    LeadsTo (BarsAlone s) (exec (.barSet p tag mask) s) := .barRequest fun s1 => .setBars p _ s1

theorem exec_barClear (p : Port) (tag : Byte) (mask : Half) (s : State) :
    LeadsTo (BarsAlone s) (exec (.barClear p tag mask) s) := .barRequest (.runBarClear p mask)

theorem BarsAlone.timeBooks {s t : State} (h : BarsAlone s t) (hs : TimeBooks s) : TimeBooks t :=
  timeBooks_congr hs h.time (by rw [h.policy]) (by rw [h.policy])

theorem secondBoundary_timeBooks {s : State} (hs : TimeBooks s) : LeadsTo TimeBooks (execSecondBoundary s) := by
  refine .idleIf hs ?_
  split
  · exact .next hs
  · next hd => exact .next (timeBooks_takeSecond hs hd)

theorem exec_timeBooks (i : Instr) {s : State} (hs : TimeBooks s) : LeadsTo TimeBooks (exec i s) := by
  cases i with
  | writeClass p tag a =>
    exact .guardedWrite hs (runWriteClass_outcome p · a) fun _ _ h ⟨_, _, ht⟩ => ht ▸ timeBooks_storeClass h
  | writeRates p tag a =>
    refine .guardedWrite hs (runWriteRates_outcome p · a) fun s1 t h ⟨pr, c, e, ht⟩ => ?_
    rw [ht, storeRate_eq]
    exact timeBooks_congr h rfl rfl rfl
  | writeThresholds p tag a =>
    exact .guardedWrite hs (runWriteThresholds_outcome p · a) fun _ _ h ⟨_, _, ht⟩ =>
      ht ▸ timeBooks_congr h rfl rfl rfl
  | writeLimits p tag a =>
    exact .guardedWrite hs (runWriteLimits_outcome p · a) fun _ _ h ⟨_, _, ht⟩ => ht ▸ timeBooks_storeLimits h
  | selectProfile p tag a =>
    exact .guardedWrite hs (runSelectProfile_outcome p · a) fun _ _ h ⟨_, ht⟩ => ht ▸ timeBooks_storeBase h
  | writeWindow p tag a =>
    exact .guardedWrite hs (runWriteWindow_outcome p · a) fun _ _ h ⟨_, _, ht⟩ => ht ▸ timeBooks_evalWindow h.range
  | writeWindowBars p tag a =>
    exact .guardedWrite hs (runWriteWindowBars_outcome p · a) fun _ _ h ⟨_, _, ht⟩ =>
      ht ▸ timeBooks_evalWindow h.range
  | barSet p tag mask => exact fun t ht => (exec_barSet p tag mask s t ht).timeBooks hs
  | barClear p tag mask => exact fun t ht => (exec_barClear p tag mask s t ht).timeBooks hs
  | setTime p tag a =>
    exact .runRequest ofSettings_timeBooks hs fun _ => timeBooks_setTimeOfDay a.seconds (Nat.min_le_left 99 _)
  | tick => exact .idleIf hs (.next (timeBooks_tickAll hs))
  | secondBoundary => exact secondBoundary_timeBooks hs
  | powerOnReset => exact .next (timeBooks_congr timeBooks_reset rfl rfl rfl)
  | _ => exact fun t ht => ofSettings_timeBooks _ _ (exec_settingsKept _ s rfl t ht) hs

/-- Settles O60: the books hold after each command that writes the settings, and depend on nothing that the others
change. -/
theorem everyStepKeepsTheTime : Obligations.EveryStepKeepsTheTime := by
  intro s t hrange hfollows h
  have hbooks : TimeBooks s := ⟨hrange, hfollows⟩
  suffices ht : TimeBooks t from ⟨ht.range, ht.follows⟩
  unfold step at h
  split at h
  · cases h
    exact hbooks
  · next i rest _ =>
    have hqueue : TimeBooks { s with pending := rest } := timeBooks_congr hbooks rfl rfl rfl
    exact exec_timeBooks i hqueue t h

/-! What changes the policy image (R132, R142, R146, R150). -/

@[simp] theorem loadTime_policy (seconds : BitVec 32) (ticks : Nat) (s : State) :
    (loadTime seconds ticks s).policy = s.policy := evalWindow_policy _

@[simp] theorem takeSecond_policy (e : SecondEnd) (s : State) : (takeSecond e s).policy = s.policy :=
  evalWindow_policy _

@[simp] theorem setTimeOfDay_policy (seconds : BitVec 32) (ticks : Nat) (s : State) :
    (setTimeOfDay seconds ticks s).policy = s.policy := by
  unfold setTimeOfDay
  split
  · exact loadTime_policy seconds ticks s
  · dsimp only
    split
    · rfl
    · exact loadTime_policy seconds ticks s

/-- The commands of the time base read the policy image and do not write it. -/
theorem exec_setTime_policy (p : Port) (tag : Byte) (a : SetTimeArgs) (s : State) :
    LeadsTo (fun t => t.policy = s.policy) (exec (.setTime p tag a) s) :=
  .runRequest (fun _ _ h hs => h.policy.trans hs) rfl fun s1 hs1 => (setTimeOfDay_policy a.seconds _ s1).trans hs1

theorem exec_secondBoundary_policy (s : State) :
    LeadsTo (fun t => t.policy = s.policy) (exec .secondBoundary s) := by
  refine .idleIf rfl ?_
  split
  · exact .next rfl
  · exact .next (takeSecond_policy _ s)

/-- Settles O39: the bar requests change the bar set alone, the commands of the time base keep the image, and so does every
command that writes no settings. -/
theorem onlyPolicyRequestsChangeThePolicy : Obligations.OnlyPolicyRequestsChangeThePolicy := by
  intro i s t h
  cases i with
  | writeClass | writeRates | writeThresholds | writeLimits | selectProfile | writeWindow | writeWindowBars => trivial
  | barSet p tag mask => exact (exec_barSet p tag mask s t h).policy
  | barClear p tag mask => exact (exec_barClear p tag mask s t h).policy
  | powerOnReset => cases h; rfl
  | setTime p tag a => exact exec_setTime_policy p tag a s t h
  | tick =>
    have htick : LeadsTo (fun t => t.policy = s.policy) (exec .tick s) := .idleIf rfl (.next (tickAll_policy s))
    exact htick t h
  | secondBoundary => exact exec_secondBoundary_policy s t h
  | _ => exact (exec_settingsKept _ s rfl t h).policy

/-! The refusals of a guarded write (R143). -/

theorem guardRefusal_locked {gen : Half} {s : State} (h : s.isLocked = true) : guardRefusal gen s =
    some (unchanged s .locked (bytes2 s.policy.generation ++ numBytes2 (windowCode s.time.activeWindow))) := by
  simp only [guardRefusal, h, if_true]

theorem guardRefusal_stale {gen : Half} {s : State} (hl : s.isLocked = false) (hg : gen ≠ s.policy.generation) :
    guardRefusal gen s = some (unchanged s .stale (bytes2 s.policy.generation)) := by
  simp only [guardRefusal, hl, Bool.false_eq_true, if_false, if_pos hg]

/-- Where the arguments are in range, what a guard answers is the answer. -/
theorem GuardedOutcome.eq_of_refused {p : Port} {q : Request} {gen : Half} {stored : State → Prop} {s : State}
    {e x : Executed} (h : GuardedOutcome p q gen stored s e) (hb : q.firstBadByte? = none)
    (hx : guardRefusal gen s = some x) : e = x := by
  cases h with
  | badRequest k hk => exact absurd (hk.symm.trans hb) (by simp)
  | refused _ he => exact Option.some.inj (he.symm.trans hx)
  | unchanged _ _ hpass => exact absurd (hpass.symm.trans hx) (by simp)
  | accepted _ _ hpass => exact absurd (hpass.symm.trans hx) (by simp)

/-- A guarded write of each kind is answered as the guards refuse it. -/
theorem exec_guardedWrite_refused {s s1 : State} {p : Port} {tag : Byte} {q : Request} {g : Half} {r : ResultCode}
    {bs : List Byte} (hq : q.expectedGeneration? = some g) (hb : q.firstBadByte? = none)
    (h : engineTake p tag q s = some s1) (hr : guardRefusal g s1 = some (unchanged s1 r bs)) :
    exec (q.command p tag) s = .next (s1.respond p r bs) := by
  cases q with
  | writeClass a => cases hq; exact runRequest_answered h ((runWriteClass_outcome p s1 a).eq_of_refused hb hr)
  | writeRates a => cases hq; exact runRequest_answered h ((runWriteRates_outcome p s1 a).eq_of_refused hb hr)
  | writeThresholds a => cases hq; exact runRequest_answered h ((runWriteThresholds_outcome p s1 a).eq_of_refused hb hr)
  | writeLimits a => cases hq; exact runRequest_answered h ((runWriteLimits_outcome p s1 a).eq_of_refused hb hr)
  | selectProfile a => cases hq; exact runRequest_answered h ((runSelectProfile_outcome p s1 a).eq_of_refused hb hr)
  | writeWindow a => cases hq; exact runRequest_answered h ((runWriteWindow_outcome p s1 a).eq_of_refused hb hr)
  | writeWindowBars a => cases hq; exact runRequest_answered h ((runWriteWindowBars_outcome p s1 a).eq_of_refused hb hr)
  | _ => cases hq

section
variable {a : WriteClassArgs} {c : ClassId} {k : Kind} {s : State}

theorem runWriteClass_classLive (p : Port) (hc : classOf? a.cls = some c) (hk : kindOf? a.kind = some k)
    (hl : s.isLocked = false) (hg : a.gen = s.policy.generation) (hkind : k ≠ s.policy.classes[c].kind)
    (hlive : 0 < s.table.classCount[c]) : runWriteClass p a s =
      answered s .classLive (bytes2 s.policy.generation ++ numBytes2 s.table.classCount[c]) := by
  simp only [runWriteClass, hc, hk, guardRefusal_none hl hg, if_pos (And.intro hkind hlive)]
  rfl

theorem runWriteClass_accepted (p : Port) (hc : classOf? a.cls = some c) (hk : kindOf? a.kind = some k)
    (hl : s.isLocked = false) (hg : a.gen = s.policy.generation)
    (hkind : k = s.policy.classes[c].kind ∨ s.table.classCount[c] = 0) : runWriteClass p a s =
      accepted p (storeClass c (clampClass k a) s) (classBytes (clampClass k a)) := by
  have hopen : ¬ (k ≠ s.policy.classes[c].kind ∧ 0 < s.table.classCount[c]) := fun ⟨hne, hlive⟩ =>
    hkind.elim hne (Nat.ne_of_gt hlive)
  simp only [runWriteClass, hc, hk, guardRefusal_none hl hg, if_neg hopen]

end

/-- Settles O31: the guards in their order by `guardRefusal`, and CLASS_LIVE once they pass. -/
theorem guardedWriteRefusals : Obligations.GuardedWriteRefusals := by
  intro s s1 p tag q g hq hb h refused
  refine ⟨fun hl => ?locked, fun hl hg => ?stale, fun a c k heq hl hg hc hk hkind hlive => ?live⟩
  case locked => exact exec_guardedWrite_refused hq hb h (guardRefusal_locked hl)
  case stale =>
    refine exec_guardedWrite_refused hq hb h ?_
    rw [guardRefusal_stale hl hg, List.append_nil]
  case live =>
    subst heq
    have hgen : a.gen = s1.policy.generation := (Option.some.inj hq).trans hg
    exact runRequest_answered h (runWriteClass_classLive p hc hk hl hgen hkind hlive)

/-! WRITE_CLASS (R133, R135, R144). -/

theorem clampLevel_unused (n : Nat) : (clampLevel .unused n).val = min 7 n := by
  dsimp only [clampLevel]
  split
  · show n % 8 = min 7 n
    omega
  · show 7 = min 7 n
    omega

/-- The level that is stored lies in the range of the kind (R133). -/
theorem clampClass_level (k : Kind) (a : WriteClassArgs) : (clampClass k a).level.val =
    match k with
    | .emergency => 0
    | .priority => max 1 (min 3 a.level.toNat)
    | .general => max 2 (min 7 a.level.toNat)
    | .unused => min 7 a.level.toNat := by
  cases k with
  | emergency => rfl
  | priority => exact clampLevel_priority _
  | general => exact clampLevel_general _
  | unused => exact clampLevel_unused _

theorem clampClass_preempt (k : Kind) (a : WriteClassArgs) : (clampClass k a).preempt =
    if k = .emergency then true else if k = .general then false else a.preempt := by
  cases k <;> rfl

theorem clampClass_vulnerable (k : Kind) (a : WriteClassArgs) : (clampClass k a).vulnerable =
    if k = .emergency then false else a.vulnerable := by
  cases k <;> rfl

theorem storeClass_eq (c : ClassId) (e : ClassEntry) (s : State) : storeClass c e s = { s with
    policy.classes := s.policy.classes.set c e
    policy.rates := if e.kind = .emergency then Vector.ofFn fun pr : ProfileId =>
      s.policy.rates[pr].set c { s.policy.rates[pr][c] with mayWait := true } else s.policy.rates
    policy.bars := if e.kind = .emergency then s.policy.bars &&& ~~~(1#16 <<< c.val) else s.policy.bars } := by
  unfold storeClass
  dsimp only
  split <;> rfl

/-- Settles O32: the guards pass, and the clamped entry is stored as `storeClass_eq` says. -/
theorem writeClassStoresTheClampedEntry : Obligations.WriteClassStoresTheClampedEntry := by
  intro s s1 p tag a c k h hc hk hl hg hkind
  refine ⟨clampClass k a, rfl, clampClass_level k a, clampClass_preempt k a, clampClass_vulnerable k a, rfl, rfl, rfl,
    rfl, ?_⟩
  intro stored
  refine runRequest_answered h ((runWriteClass_accepted p hc hk hl hg hkind).trans ?_)
  rw [accepted_eq, storeClass_eq]
  rfl

end Sys2Proof.Machine.PolicyAndProfiles
end

section
/-! PROOFS. The time base and the surge windows (08_time_base_and_surge_windows.md): the window writes, SET_TIME, the
end of a second at a TICK, and its boundary. -/

namespace Sys2Proof.Machine.TimeAndWindows

open PacingAndPressure PolicyAndProfiles

/-! Window writes (R144, R157, R158). -/

theorem windowOf?_eq {b : BitVec 4} {i : WindowId} (h : b.toNat = i.val) : windowOf? b = some i := by
  unfold windowOf?
  rw [dif_pos (h ▸ i.isLt)]
  exact congrArg some (Fin.ext h)

theorem windowProfileOf?_eq {b : BitVec 4} {pr : ProfileId} (h : b.toNat = pr.val) : windowProfileOf? b = some pr := by
  unfold windowProfileOf?
  rw [dif_pos (h ▸ pr.isLt)]
  exact congrArg some (Fin.ext h)

/-- The evaluation of the active window leaves the generation of the write alone. -/
@[simp] theorem storeWindow_generation (i : WindowId) (w : Window) (s : State) :
    (storeWindow i w s).policy.generation = s.policy.generation := by
  rw [storeWindow, evalWindow_policy]

theorem accepted_storeWindow (p : Port) (i : WindowId) (w : Window) (s : State) (bs : List Byte) :
    accepted p (storeWindow i w s) bs =
      answered (raiseOthers p .policy { storeWindow i w s with policy.generation := s.policy.generation + 1 }) .done
        (bytes2 (s.policy.generation + 1) ++ bs) := by
  rw [accepted_eq, storeWindow_generation]

section
variable {i : WindowId} {s : State}

theorem runWriteWindow_accepted {a : WriteWindowArgs} {pr : ProfileId} (p : Port) (hi : windowOf? a.window = some i)
    (hp : windowProfileOf? a.profile = some pr) (hl : s.isLocked = false) (hg : a.gen = s.policy.generation) :
    runWriteWindow p a s =
      let w := clampWindow s.policy.windows[i] pr a
      accepted p (storeWindow i w s) (windowTimingBytes w ++
        [byteOf (w.profile.val * 16 + w.minimum), byteOf (windowCode (storeWindow i w s).time.activeWindow)]) := by
  simp only [runWriteWindow, hi, hp, guardRefusal_none hl hg]

theorem runWriteWindowBars_accepted {a : WriteWindowBarsArgs} (p : Port) (hi : windowOf? a.window = some i)
    (hl : s.isLocked = false) (hg : a.gen = s.policy.generation) : runWriteWindowBars p a s =
      let t := storeWindow i { s.policy.windows[i] with bars := a.mask } s
      accepted p t (bytes2 a.mask ++ [byteOf (windowCode t.time.activeWindow)]) := by
  simp only [runWriteWindowBars, hi, guardRefusal_none hl hg]

end

/-- Settles O36: the guards pass, and each write stores its window and is accepted. -/
theorem windowWritesStoreAndEvaluate : Obligations.WindowWritesStoreAndEvaluate := by
  refine ⟨fun s s1 p tag a i pr h hi hp hl hg => ?window, fun s s1 p tag a i h hi hl hg => ?bars⟩
  case window =>
    intro w t
    refine runRequest_answered h ((runWriteWindow_accepted p (windowOf?_eq hi) (windowProfileOf?_eq hp) hl hg).trans ?_)
    dsimp only
    rw [accepted_storeWindow, ← List.append_assoc]
    rfl
  case bars =>
    intro t
    refine runRequest_answered h ((runWriteWindowBars_accepted p (windowOf?_eq hi) hl hg).trans ?_)
    dsimp only
    rw [accepted_storeWindow, ← List.append_assoc]
    rfl

/-! SET_TIME (R154, R155). -/

/-- A time is slewed only while RUNNING and within the limit; any other is loaded (R154, R155). -/
theorem setTimeOfDay_eq (seconds : BitVec 32) (ticks : Nat) (s : State) : setTimeOfDay seconds ticks s =
    let d := timeInTicks seconds ticks - timeInTicks s.time.seconds s.time.tickInSecond
    if s.time.state = .running ∧ -Config.slewMax ≤ d ∧ d ≤ Config.slewMax then { s with time.slew := d }
    else loadTime seconds ticks s := by
  unfold setTimeOfDay
  cases hstate : s.time.state with
  | unset => rfl
  | running => simp only [true_and]

/-- Settles O41: the two outcomes of `setTimeOfDay_eq`, answered with the time that they leave. -/
theorem setTimeLoadsSlewsOrSteps : Obligations.SetTimeLoadsSlewsOrSteps := by
  intro s s1 p tag a h ticks d t
  have ht : setTimeOfDay a.seconds ticks s1 = t := setTimeOfDay_eq a.seconds ticks s1
  have hrun : runSetTime a s1 = answered t .done (timeBytes t.time) := by
    rw [← ht]
    rfl
  exact runRequest_answered h hrun

/-! The end of a second (R152, R153). -/

/-- The time base with its tick counter one higher and the time of day as given. -/
def afterTick (t : TimeBase) (n : Nat) (held : Bool) (due : Option SecondEnd) : TimeBase :=
  { t with ticks := t.ticks + 1, tickInSecond := n, held := held, secondDue := due }

section
variable {t : TimeBase}

/-- An unset time stands, and so does one whose boundary is due (R152, log 5). -/
theorem tick_stands (h : t.state = .unset ∨ t.secondDue ≠ none) :
    t.tick = afterTick t t.tickInSecond t.held t.secondDue := by
  unfold TimeBase.tick
  dsimp only
  split
  · rfl
  · next hr =>
    have hdue : t.secondDue ≠ none := h.resolve_left (by simp [hr])
    simp only [TimeBase.tickSecond, Option.isSome_iff_ne_none.2 hdue, if_true, afterTick]

theorem tick_below98 (hr : t.state = .running) (hdue : t.secondDue = none) (hn : t.tickInSecond < 98) :
    t.tick = afterTick t (t.tickInSecond + 1) t.held none := by
  simp [TimeBase.tick, TimeBase.tickSecond, afterTick, hr, hdue, hn]

/-- A remainder above 0 ends the second after 99 ticks (R153). -/
theorem tick_at98 (hr : t.state = .running) (hdue : t.secondDue = none) (hn : t.tickInSecond = 98) : t.tick =
    if 0 < t.slew then afterTick t 98 t.held (some .short) else afterTick t 99 t.held none := by
  simp [TimeBase.tick, TimeBase.tickSecond, afterTick, hr, hdue, hn]

/-- A remainder below 0 holds the tick-in-second at 99 once, and the tick after that ends the second (R153). -/
theorem tick_at99 (hr : t.state = .running) (hdue : t.secondDue = none) (hn : t.tickInSecond = 99) : t.tick =
    if t.held then afterTick t 99 true (some .held)
    else if t.slew < 0 then afterTick t 99 true none else afterTick t 99 false (some .full) := by
  cases hh : t.held <;> simp [TimeBase.tick, TimeBase.tickSecond, afterTick, hr, hdue, hn, hh]

end

theorem exec_tick {s : State} (h : s.resetLow = false) : exec .tick s = .next (tickAll s) := by
  have hexec : exec .tick s = execTick s := rfl
  simp [hexec, execTick, h]

/-! The boundary of a second (R152, R153). -/

theorem exec_secondBoundary_idle {s : State} (h : s.resetLow = true ∨ s.time.secondDue = none) :
    exec .secondBoundary s = .next s := by
  have hexec : exec .secondBoundary s = execSecondBoundary s := rfl
  rw [hexec, execSecondBoundary]
  rcases h with h | h <;> simp [h]

theorem exec_secondBoundary_due {s : State} {e : SecondEnd} (hl : s.resetLow = false)
    (he : s.time.secondDue = some e) : exec .secondBoundary s = .next (takeSecond e s) := by
  have hexec : exec .secondBoundary s = execSecondBoundary s := rfl
  simp [hexec, execSecondBoundary, hl, he]

/-- A short second absorbs a tick of slew down to the limit of 200 (R153, log 7). -/
theorem slewAfter_short {n m : Int} (h : -200 < n ∧ m = n - 1 ∨ n ≤ -200 ∧ m = n) : slewAfter .short n = m := by
  have heq : slewAfter .short n = if n ≤ -200 then n else n - 1 := rfl
  rcases h with ⟨hn, rfl⟩ | ⟨hn, rfl⟩
  · rw [heq, if_neg (Int.not_le.2 hn)]
  · rw [heq, if_pos hn]

/-- A held second absorbs a tick of slew up to 0 (R153). -/
theorem slewAfter_held {n m : Int} (h : n < 0 ∧ m = n + 1 ∨ 0 ≤ n ∧ m = n) : slewAfter .held n = m := by
  have heq : slewAfter .held n = if n < 0 then n + 1 else n := rfl
  rcases h with ⟨hn, rfl⟩ | ⟨hn, rfl⟩
  · rw [heq, if_pos hn]
  · rw [heq, if_neg (Int.not_lt.2 hn)]

/-- Settles O43: a TICK by the equations of the Time Base, and a boundary by how the second that is due has ended. -/
theorem secondsRunAndEndBySlew : Obligations.SecondsRunAndEndBySlew := by
  refine ⟨fun s hl => ⟨tickAll s, exec_tick hl, ?tick⟩,
    fun s => ⟨exec_secondBoundary_idle, fun hl slew h => ?boundary⟩⟩
  case tick =>
    intro reads n
    have reads_of : ∀ {m : Nat} {held : Bool} {due : Option SecondEnd},
        s.time.tick = afterTick s.time m held due → reads m held due := by
      intro m held due h
      have htime : (tickAll s).time = afterTick s.time m held due := (tickAll_time s).trans h
      exact ⟨congrArg _ htime, congrArg _ htime, congrArg _ htime⟩
    refine ⟨fun h => reads_of (tick_stands h), fun hr hdue => ⟨fun hn => reads_of (tick_below98 hr hdue hn),
      fun hn hs => ?short, fun hn hs => ?to99, fun hn hh hs => ?holds, fun hn hh hs => ?full, fun hn hh => ?held⟩⟩
    case short => exact reads_of ((tick_at98 hr hdue hn).trans (if_pos hs))
    case to99 => exact reads_of ((tick_at98 hr hdue hn).trans (if_neg (Int.not_lt.2 hs)))
    case holds => exact reads_of (by rw [tick_at99 hr hdue hn, hh, if_neg Bool.false_ne_true, if_pos hs])
    case full => exact reads_of (by rw [tick_at99 hr hdue hn, hh, if_neg Bool.false_ne_true, if_neg (Int.not_lt.2 hs)])
    case held => exact reads_of ((tick_at99 hr hdue hn).trans (if_pos hh))
  case boundary =>
    obtain ⟨e, he, hslew⟩ : ∃ e, s.time.secondDue = some e ∧ slewAfter e s.time.slew = slew := by
      rcases h with ⟨he, hs⟩ | ⟨he, hs⟩ | ⟨he, hs⟩
      · exact ⟨.short, he, slewAfter_short hs⟩
      · exact ⟨.full, he, hs.symm⟩
      · exact ⟨.held, he, slewAfter_held hs⟩
    rw [exec_secondBoundary_due hl he, takeSecond, hslew]

end Sys2Proof.Machine.TimeAndWindows
end

section
/-! PROOFS. Notices and attention (09_notices_and_attention.md): the notice list from its tail to its head, the answers
about events, the status summary, and the fall and rise of PRST#. -/

namespace Sys2Proof.Machine.NoticesAndAttention

open PacingAndPressure

/-! Updates of one port. -/

theorem updPort_updPort (s : State) (p : Port) (f g : PortState → PortState) :
    (s.updPort p f).updPort p g = s.updPort p fun ps => g (f ps) := by
  simp [State.updPort]

/-- An update depends on the new value of its port alone. -/
theorem updPort_congr {s : State} {p : Port} {f g : PortState → PortState} (h : f s.ports[p] = g s.ports[p]) :
    s.updPort p f = s.updPort p g := by
  unfold State.updPort
  rw [h]

/-! Notices (R165, R166, R168, R169, R172). -/

theorem final_iff {k : NoticeKind} : k.final = true ↔ k = .reclaimed ∨ k = .expired := by
  cases k <;> decide

theorem final_eq_false {k : NoticeKind} (hr : k ≠ .reclaimed) (he : k ≠ .expired) : k.final = false :=
  Bool.eq_false_iff.2 fun h => (final_iff.1 h).elim hr he

/-- The id at the head of a list that holds each id once leaves the rest of the list behind. -/
theorem leaveNotices_head {ps : PortState} {id : RecId} {rest : List RecId} (h : ps.notices = id :: rest)
    (honce : ps.notices.Nodup) : ps.leaveNotices id =
      { ps with
        notices := rest
        events := if rest = [] then ps.events &&& ~~~Event.notice.bit else ps.events } := by
  rw [h, List.nodup_cons] at honce
  have hrest : ps.notices.filter (· != id) = rest := by
    rw [h, List.filter_cons_of_neg (by simp), List.filter_eq_self]
    exact fun j hj => bne_iff_ne.2 fun e => honce.1 (e ▸ hj)
  simp only [PortState.leaveNotices, hrest, List.isEmpty_iff]

/-- The head of a port's list names a record of the port with a notice pending (R165). -/
theorem notices_head {s : State} {p : Port} {id : RecId} {rest : List RecId} (hb : NoticeBooks s)
    (h : s.ports[p].notices = id :: rest) :
    ∃ (r : CallRecord) (k : NoticeKind), s.rec? id = some r ∧ r.owner = p ∧ r.notice = some k := by
  obtain ⟨r, hr, ho, hn⟩ := (hb.lists p id).1 (h ▸ List.mem_cons_self)
  obtain ⟨k, hk⟩ := Option.ne_none_iff_exists'.1 hn
  exact ⟨r, k, hr, ho, hk⟩

theorem runFetchNotice_empty {p : Port} {s : State} (h : s.ports[p].notices = []) :
    runFetchNotice p s = answered s .notFound [] := by
  simp only [runFetchNotice, h]
  rfl

section
variable {p : Port} {s : State} {id : RecId} {rest : List RecId} {r : CallRecord} {k : NoticeKind}

/-- A fetch reads the head of the list and then takes it away: a final notice with its record (R168, R169). -/
theorem runFetchNotice_head (h : s.ports[p].notices = id :: rest) (hr : s.rec? id = some r) (hk : r.notice = some k) :
    runFetchNotice p s = answered (if k.final then freeRecord id s else takeNotice id r s) .done
      (noticeBytes id r k rest.length) := by
  simp only [runFetchNotice, h, hr, hk]

/-- The notice at the head of the list of the record's owner leaves its record and its list, and nothing else. -/
theorem takeNotice_head (hb : NoticeBooks s) (h : s.ports[p].notices = id :: rest) (ho : r.owner = p) :
    takeNotice id r s = (s.setRec id { r with notice := none }).updPort p fun ps =>
      { ps with
        notices := rest
        events := if rest = [] then ps.events &&& ~~~Event.notice.bit else ps.events } := by
  rw [takeNotice, ho]
  exact updPort_congr (leaveNotices_head h (hb.once p))

end

/-- Settles O24: a posting by the notice that the record carries, and a fetch by the head of the list. -/
theorem noticesArePostedThenFetchedInOrder : Obligations.NoticesArePostedThenFetchedInOrder := by
  refine ⟨fun s id r k hr => ⟨fun hn => postNotice_new k hr hn,
      fun old hn => ⟨fun hfinal => ?kept, fun hnr hne => ?replaced⟩⟩,
    fun s s1 p tag h hb => ⟨fun hempty => ?empty, fun id rest hlist => ?head⟩⟩
  case kept => exact postNotice_final k hr hn (final_iff.2 hfinal)
  case replaced => exact postNotice_replace k hr hn (final_eq_false hnr hne)
  case empty => exact runRequest_answered h (runFetchNotice_empty hempty)
  case head =>
    obtain ⟨r, k, hr, ho, hk⟩ := notices_head hb hlist
    have hrun := runFetchNotice_head hlist hr hk
    refine ⟨r, k, hr, hk, fun hfinal => runRequest_answered h ?_, fun hnr hne => runRequest_answered h ?_⟩
    · rw [hrun, if_pos (final_iff.2 hfinal)]
      rfl
    · rw [hrun, final_eq_false hnr hne, if_neg Bool.false_ne_true, takeNotice_head hb hlist ho]
      rfl

/-! READ_EVENTS and SET_ENABLES (R174, R175). -/

theorem runSetEnables_eq (p : Port) (mask : Half) (s : State) : runSetEnables p mask s =
    answered (s.updPort p fun ps => { ps with enables := mask.setWidth 9 }) .done
      (eventBytes (mask.setWidth 9) ++ eventBytes s.ports[p].events) := by
  rw [BitVec.setWidth_eq_extractLsb' (by decide : 9 ≤ 16)]
  rfl

/-- Settles O25: both requests answer with the port as it stood, by the equations of their executions. -/
theorem eventsAreReadAndEnabled : Obligations.EventsAreReadAndEnabled :=
  fun _ s1 p _ mask => ⟨fun h => runRequest_answered h rfl, fun h => runRequest_answered h (runSetEnables_eq p mask s1)⟩

/-! Attention and the status summary (R176, R185, R186). -/

theorem ne_zero_iff_exists_event (x : EventSet) : x ≠ 0 ↔ ∃ e : Fin 9, x.getLsbD e.val = true := by
  constructor
  · intro h
    refine Classical.byContradiction fun hnone => h (BitVec.zero_iff_eq_false.2 fun i => Bool.eq_false_iff.2 ?_)
    exact fun hbit => hnone ⟨⟨i, BitVec.lt_of_getLsbD hbit⟩, hbit⟩
  · rintro ⟨e, he⟩ rfl
    simp at he

section
variable {ps : PortState}

theorem attention_iff : ps.attention = true ↔
    ∃ e : Fin 9, ps.events.getLsbD e.val = true ∧ ps.enables.getLsbD e.val = true := by
  simp only [PortState.attention, bne_iff_ne, ne_zero_iff_exists_event, BitVec.getLsbD_and, Bool.and_eq_true]

/-- Any event that is pending and enabled has one at or below it that is the top event (R176). -/
theorem topEvent_lowest {e : Fin 9} (hp : ps.events.getLsbD e.val = true) (hn : ps.enables.getLsbD e.val = true) :
    ps.topEvent ≤ e.val ∧ ps.events.getLsbD ps.topEvent = true ∧ ps.enables.getLsbD ps.topEvent = true := by
  have hboth : (ps.events &&& ps.enables).getLsbD e.val = true := by
    rw [BitVec.getLsbD_and, hp, hn]
    rfl
  cases hfind : (List.range 9).find? fun n => (ps.events &&& ps.enables).getLsbD n with
  | none => exact absurd hboth (List.find?_eq_none.1 hfind e.val (List.mem_range.2 e.isLt))
  | some n =>
    have htop : ps.topEvent = n := by simp only [PortState.topEvent, hfind, Option.getD_some]
    obtain ⟨hbit, -, hbelow⟩ := List.find?_range_eq_some.1 hfind
    rw [BitVec.getLsbD_and, Bool.and_eq_true] at hbit
    rw [htop]
    refine ⟨Nat.le_of_not_lt fun hlt => ?_, hbit⟩
    exact absurd (hbelow e.val hlt) (by rw [hboth]; decide)

theorem topEvent_of_quiet (h : ps.attention = false) : ps.topEvent = 15 := by
  have hzero : ps.events &&& ps.enables = 0 := by simpa [PortState.attention] using h
  simp only [PortState.topEvent, hzero]
  rfl

theorem topEvent_le (ps : PortState) : ps.topEvent ≤ 15 := by
  cases h : ps.attention with
  | false => exact Nat.le_of_eq (topEvent_of_quiet h)
  | true =>
    obtain ⟨e, hp, hn⟩ := attention_iff.1 h
    have hle := (topEvent_lowest hp hn).1
    omega

end

/-- The fields of a summary fit their places, so that it carries their sum (R186). -/
theorem summary_toNat {s : State} (p : Port) (carries : Bool) (h : s.pacing.level ≤ 3) :
    (summary s p carries).toNat =
      (if s.ports[p].attention then 1 else 0) * 32768 + s.ports[p].topEvent * 2048 + s.pacing.level * 512 +
        (if s.ports[p].reject then 1 else 0) * 256 + min 31 s.ports[p].notices.length * 8 +
        s.ports[p].freeSlots carries := by
  have htop := topEvent_le s.ports[p]
  have hfree : s.ports[p].freeSlots carries ≤ 4 := Nat.sub_le _ _
  simp only [summary, BitVec.toNat_ofNat, Config.noticeCountMax]
  split <;> split <;> omega

/-- Reading back the fields of a sixteen-bit word that was packed in the places of R186. -/
theorem summary_fields {a top level reject notices slots : Nat} (htop : top ≤ 15) (hlevel : level ≤ 3)
    (hreject : reject ≤ 1) (hnotices : notices ≤ 31) (hslots : slots ≤ 7) :
    let w := a * 32768 + top * 2048 + level * 512 + reject * 256 + notices * 8 + slots
    w / 32768 = a ∧ w / 2048 % 16 = top ∧ w / 512 % 4 = level ∧ w / 256 % 2 = reject ∧ w / 8 % 32 = notices ∧
      w % 8 = slots := by
  omega

/-- Settles O26: the events by their bits, and the word by its fields. -/
theorem summaryShowsThePort : Obligations.SummaryShowsThePort := by
  intro s p carries hlevel ps
  have hreject : (if ps.reject then 1 else 0) ≤ 1 := by split <;> decide
  have hslots : ps.freeSlots carries ≤ 7 := Nat.le_trans (Nat.sub_le _ _) (by decide : 4 ≤ 7)
  refine ⟨attention_iff, topEvent_of_quiet, fun e => topEvent_lowest, ?_⟩
  rw [summary_toNat p carries hlevel]
  exact summary_fields (topEvent_le ps) hlevel hreject (Nat.min_le_left _ _) hslots

/-! PRST# (R178, R190, R191). -/

theorem recordsOf_eq_nil_iff {s : State} (p : Port) (ht : idsRise s.table.records = true) :
    recordsOf p s = [] ↔ ∀ (id : RecId) (r : CallRecord), s.rec? id = some r → r.owner ≠ p := by
  simp only [recordsOf, List.map_eq_nil_iff, List.filter_eq_nil_iff, decide_eq_true_eq, Prod.forall,
    State.rec?_eq_some ht]

/-- A sequence goes on while the port owns a record (R39). -/
theorem finishIfDone_owning {s : State} {p : Port} (ht : idsRise s.table.records = true)
    (h : ∃ (id : RecId) (r : CallRecord), s.rec? id = some r ∧ r.owner = p) : finishIfDone p s = s := by
  obtain ⟨id, r, hr, ho⟩ := h
  have hsome : recordsOf p s ≠ [] := fun hnil => (recordsOf_eq_nil_iff p ht).1 hnil id r hr ho
  rw [finishIfDone, if_neg (by simpa using hsome)]

theorem finishIfDone_empty {s : State} {p : Port} (ht : idsRise s.table.records = true)
    (h : ∀ (id : RecId) (r : CallRecord), s.rec? id = some r → r.owner ≠ p) :
    finishIfDone p s = s.updPort p (·.finishReset) := by
  rw [finishIfDone, (recordsOf_eq_nil_iff p ht).2 h]
  rfl

/-- A sequence that PRST# began, or whose answer its fall has discarded, ends without an answer (R192, log 16). -/
theorem finishReset_beginReset (ps : PortState) : ps.beginReset.finishReset =
    { ps.beginReset.resetReporting with resetSeq := none } := by
  have hsilent : ∀ seq : Option ResetSeq, ResetSeq.afterFall seq = .byPin ∨ ResetSeq.afterFall seq = .byClear none
    | none => .inl rfl
    | some .byPin => .inl rfl
    | some (.byClear _) => .inr rfl
  have hseq : ps.beginReset.resetSeq = some (ResetSeq.afterFall ps.resetSeq) := rfl
  rcases hsilent ps.resetSeq with h | h <;> simp only [PortState.finishReset, hseq, h]

theorem afterFall_eq (seq : Option ResetSeq) : ResetSeq.afterFall seq =
    match seq with
    | some (.byClear _) => .byClear none
    | _ => .byPin := by
  rcases seq with _ | _ | _ <;> rfl

section
variable {s : State} {p : Port}

theorem exec_portReset_low (h : s.ports[p].prstLow = true) : exec (.portReset p) s = .next s :=
  if_pos h

theorem exec_portReset_whileReset (h : s.ports[p].prstLow = false) (hl : s.resetLow = true) :
    exec (.portReset p) s = .next (s.updPort p fun ps => { ps.dropTransaction with prstLow := true }) := by
  have hexec : exec (.portReset p) s = execPortReset p s := rfl
  simp only [hexec, execPortReset, h, hl, Bool.false_eq_true, if_false, if_true]

theorem exec_portReset_falls (h : s.ports[p].prstLow = false) (hl : s.resetLow = false) :
    exec (.portReset p) s = .next (finishIfDone p (s.updPort p (·.beginReset))) := by
  have hexec : exec (.portReset p) s = execPortReset p s := rfl
  simp only [hexec, execPortReset, h, hl, Bool.false_eq_true, if_false]

end

/-- Settles O47: a fall by the pins that stand, and the end of its sequence by the records that the port owns. -/
theorem portResetEmptiesThePort : Obligations.PortResetEmptiesThePort := by
  intro s p dead
  refine ⟨rfl, exec_portReset_low, exec_portReset_whileReset, fun ht h hl => ⟨fun howns => ?begins, fun hnone => ?ends⟩⟩
  case begins =>
    rw [exec_portReset_falls h hl, finishIfDone_owning (s := s.updPort p _) ht.idsRise howns]
    refine congrArg _ (updPort_congr ?_)
    rw [PortState.beginReset, afterFall_eq]
    rfl
  case ends =>
    rw [exec_portReset_falls h hl, finishIfDone_empty (s := s.updPort p _) ht.idsRise hnone, updPort_updPort]
    exact congrArg _ (updPort_congr (finishReset_beginReset _))

end Sys2Proof.Machine.NoticesAndAttention
end
section
/-! PROOFS. Sector ports and resets (10_sector_ports.md): the arbiter's order, the engine's step on a request command,
transactions, request frames, the refusal of bad arguments, PORT_CLEAR and RESET#, the books of the queues under every
command, and the statements of chapter 10. -/

namespace Sys2Proof.Machine.SectorPorts

open PacingAndPressure PolicyAndProfiles NoticesAndAttention

/-! The queue of commands (R189, log 2). -/

/-- Settles O1: both are equations of `step`. -/
theorem stepRunsFrontCommand : Obligations.StepRunsFrontCommand := fun _ _ _ => ⟨rfl, rfl⟩

/-! The arbiter (R189). -/

theorem engineFree_iff {s : State} :
    s.engineFree = true ↔ s.resetLow = false ∧ ∀ q : Port, s.ports[q].resetSeq = none := by
  simp [State.engineFree]

/-- The place of a port in the order that begins at the pointer. -/
def turn (s : State) (q : Port) : Nat := (q - s.pointer).val

theorem turn_injective {s : State} {p q : Port} (h : turn s p = turn s q) : p = q := by
  unfold turn at h
  generalize s.pointer = n at h
  revert n p q
  decide

theorem mem_portOrder (s : State) (q : Port) : q ∈ s.portOrder := by
  simp only [State.portOrder, List.mem_cons, List.not_mem_nil, or_false]
  generalize s.pointer = n
  revert n q
  decide

theorem portOrder_pairwise (s : State) : s.portOrder.Pairwise fun p q => turn s p < turn s q := by
  unfold State.portOrder turn
  generalize s.pointer = n
  revert n
  decide

theorem mem_candidatesInOrder {s : State} {c : Port × Frame} :
    c ∈ s.candidatesInOrder ↔ s.candidate? c.1 = some c.2 := by
  obtain ⟨q, g⟩ := c
  simp [State.candidatesInOrder, mem_portOrder]

theorem candidatesInOrder_pairwise (s : State) :
    s.candidatesInOrder.Pairwise fun c d => turn s c.1 < turn s d.1 := by
  refine List.Pairwise.filterMap _ (fun p q hlt c hc d hd => ?_) (portOrder_pairwise s)
  simp only [Option.map_eq_some_iff] at hc hd
  obtain ⟨_, _, rfl⟩ := hc
  obtain ⟨_, _, rfl⟩ := hd
  exact hlt

/-- A candidate that R189 prefers to every other: no urgent one stands beside it unless it is urgent itself, and it
comes first among those of its own urgency. -/
structure Preferred (s : State) (c : Port × Frame) : Prop where
  candidate : s.candidate? c.1 = some c.2
  urgent : ∀ (q : Port) (g : Frame), s.candidate? q = some g → s.isUrgent g = true → s.isUrgent c.2 = true
  first : ∀ (q : Port) (g : Frame), s.candidate? q = some g → s.isUrgent g = s.isUrgent c.2 →
    turn s c.1 ≤ turn s q

theorem Preferred.unique {s : State} {c d : Port × Frame} (hc : Preferred s c) (hd : Preferred s d) : c = d := by
  have hurgent : s.isUrgent c.2 = s.isUrgent d.2 :=
    Bool.eq_iff_iff.2 ⟨hd.urgent _ _ hc.candidate, hc.urgent _ _ hd.candidate⟩
  have hport : c.1 = d.1 := turn_injective
    (Nat.le_antisymm (hc.first _ _ hd.candidate hurgent.symm) (hd.first _ _ hc.candidate hurgent))
  exact Prod.ext hport (Option.some.inj (hc.candidate.symm.trans (hport ▸ hd.candidate)))

/-- The first urgent candidate in order is preferred. -/
theorem preferred_of_find {s : State} {c : Port × Frame}
    (h : s.candidatesInOrder.find? (fun d => s.isUrgent d.2) = some c) : Preferred s c := by
  obtain ⟨hurgent, before, after, hlist, hbefore⟩ := List.find?_eq_some_iff_append.1 h
  have hsorted := candidatesInOrder_pairwise s
  refine ⟨mem_candidatesInOrder.1 (List.mem_of_find?_eq_some h), fun _ _ _ _ => hurgent, fun q g hg hsame => ?_⟩
  have hmem : (q, g) ∈ before ++ c :: after := hlist ▸ mem_candidatesInOrder.2 hg
  rw [hlist, List.pairwise_append, List.pairwise_cons] at hsorted
  rcases List.mem_append.1 hmem with hmem | hmem
  · have hnot := hbefore _ hmem
    simp [hsame, hurgent] at hnot
  · rcases List.mem_cons.1 hmem with rfl | hmem
    · exact Nat.le_refl _
    · exact Nat.le_of_lt (hsorted.2.1.1 _ hmem)

/-- Where no candidate is urgent, the first in order is preferred. -/
theorem preferred_of_head {s : State} {c : Port × Frame}
    (hnone : s.candidatesInOrder.find? (fun d => s.isUrgent d.2) = none) (h : s.candidatesInOrder.head? = some c) :
    Preferred s c := by
  obtain ⟨after, hlist⟩ := List.head?_eq_some_iff.1 h
  have hcalm : ∀ (q : Port) (g : Frame), s.candidate? q = some g → ¬ s.isUrgent g = true := fun q g hg =>
    List.find?_eq_none.1 hnone (q, g) (mem_candidatesInOrder.2 hg)
  have hsorted := candidatesInOrder_pairwise s
  rw [hlist, List.pairwise_cons] at hsorted
  refine ⟨mem_candidatesInOrder.1 (List.mem_of_head? h), fun q g hg hu => absurd hu (hcalm q g hg),
    fun q g hg _ => ?_⟩
  have hmem : (q, g) ∈ c :: after := hlist ▸ mem_candidatesInOrder.2 hg
  rcases List.mem_cons.1 hmem with rfl | hmem
  · exact Nat.le_refl _
  · exact Nat.le_of_lt (hsorted.1 _ hmem)

theorem arbiterChoice_preferred {s : State} {c : Port × Frame} (h : arbiterChoice s = some c) :
    s.engineFree = true ∧ Preferred s c := by
  unfold arbiterChoice at h
  split at h
  · next hfree =>
    refine ⟨hfree, ?_⟩
    split at h
    · next hfind => exact preferred_of_find (h ▸ hfind)
    · next hnone => exact preferred_of_head hnone h
  · cases h

theorem arbiterChoice_some {s : State} {q : Port} {g : Frame} (hfree : s.engineFree = true)
    (hg : s.candidate? q = some g) : ∃ c, arbiterChoice s = some c := by
  have hmem : (q, g) ∈ s.candidatesInOrder := mem_candidatesInOrder.2 hg
  rw [arbiterChoice, if_pos hfree]
  split
  · exact ⟨_, rfl⟩
  · exact ⟨_, List.head?_eq_some_head (List.ne_nil_of_mem hmem)⟩

theorem arbiterChoice_iff {s : State} {c : Port × Frame} :
    arbiterChoice s = some c ↔ s.engineFree = true ∧ Preferred s c := by
  refine ⟨arbiterChoice_preferred, fun ⟨hfree, hc⟩ => ?_⟩
  obtain ⟨d, hd⟩ := arbiterChoice_some hfree hc.candidate
  rw [hd, hc.unique (arbiterChoice_preferred hd).2]

/-- Settles O2: the choice is the one candidate that is preferred. -/
theorem arbiterPrefersUrgentThenPointerOrder : Obligations.ArbiterPrefersUrgentThenPointerOrder := by
  refine fun s => ⟨fun p f => ?_, fun hreset hseq ⟨q, g, hg⟩ => arbiterChoice_some (engineFree_iff.2 ⟨hreset, hseq⟩) hg⟩
  rw [arbiterChoice_iff, engineFree_iff, and_assoc]
  exact and_congr_right' (and_congr_right' ⟨fun h => ⟨h.candidate, h.urgent, h.first⟩,
    fun ⟨hcandidate, hurgent, hfirst⟩ => ⟨hcandidate, hurgent, hfirst⟩⟩)


/-! The engine's step on a request command (R180 to R183, R189, log 1). -/

theorem candidate?_eq_some {s : State} {p : Port} {f : Frame} : s.candidate? p = some f ↔
    s.ports[p].prstLow = false ∧
      (s.ports[p].inflight.find? fun q => !q.executed) = some { frame := f, executed := false } := by
  unfold State.candidate?
  cases s.ports[p].prstLow with
  | true => simp
  | false =>
    simp only [Bool.false_eq_true, if_false, true_and, Option.map_eq_some_iff]
    constructor
    · rintro ⟨⟨g, done⟩, hfind, rfl⟩
      have hdone := List.find?_some hfind
      simp only [Bool.not_eq_true'] at hdone
      rw [hfind, hdone]
    · exact fun hfind => ⟨_, hfind, rfl⟩

theorem candidate?_eq_none {s : State} {p : Port} (hpin : s.ports[p].prstLow = false) :
    s.candidate? p = none ↔ ∀ x ∈ s.ports[p].inflight, x.executed = true := by
  unfold State.candidate?
  rw [hpin]
  simp

theorem spells_iff {f : Frame} {tag : Byte} {q : Request} :
    spells f tag q = true ↔ f.b1 = tag ∧ decodeRequest f = q := by
  simp [spells]

theorem claim_eq_some {p : Port} {tag : Byte} {q : Request} {s s1 : State} (h : claim p tag q s = some s1) :
    ∃ f : Frame, arbiterChoice s = some (p, f) ∧ f.b1 = tag ∧ decodeRequest f = q ∧
      s1 = { s with pointer := p + 1 } := by
  have hpointer := claim_pointer h
  unfold claim at h
  split at h
  · cases h
  · next r f hchoice =>
    split at h
    · next hthis =>
      obtain ⟨rfl, hspells⟩ := hthis
      obtain ⟨htag, hrequest⟩ := spells_iff.1 hspells
      exact ⟨f, hchoice, htag, hrequest, hpointer⟩
    · cases h

theorem claim_of_choice {p : Port} {f : Frame} {tag : Byte} {q : Request} {s : State}
    (h : arbiterChoice s = some (p, f)) (htag : f.b1 = tag) (hrequest : decodeRequest f = q) :
    claim p tag q s = some { s with pointer := p + 1 } := by
  simp only [claim, h, spells_iff.2 ⟨htag, hrequest⟩, and_self, if_true]

theorem engineTake_waiting {p : Port} {c : Port × Frame} {tag : Byte} {q : Request} {s : State}
    (h : arbiterChoice s = some c) : engineTake p tag q s = claim p tag q s := by
  simp only [engineTake, h]

theorem engineTake_handsIn {p : Port} {tag : Byte} {q : Request} {s : State} (h : arbiterChoice s = none)
    (hcs : s.ports[p].transaction = none) :
    engineTake p tag q s = claim p tag q (transact p (encodeRequest tag q) s) := by
  simp only [engineTake, h, hcs, Option.isNone_none, if_true]

/-- A taken request is the arbiter's choice, as it waited or as a transaction of its port has handed it in. -/
theorem engineTake_eq_some {p : Port} {tag : Byte} {q : Request} {s s1 : State} (h : engineTake p tag q s = some s1) :
    ∃ (s0 : State) (f : Frame), (s0 = s ∨ s0 = transact p (encodeRequest tag q) s) ∧
      arbiterChoice s0 = some (p, f) ∧ f.b1 = tag ∧ decodeRequest f = q ∧ s1 = { s0 with pointer := p + 1 } := by
  unfold engineTake at h
  split at h
  · obtain ⟨f, hclaim⟩ := claim_eq_some h
    exact ⟨s, f, .inl rfl, hclaim⟩
  · split at h
    · obtain ⟨f, hclaim⟩ := claim_eq_some h
      exact ⟨_, f, .inr rfl, hclaim⟩
    · cases h

/-- In the state in which the engine executes a request, RESET# is high, no port reset sequence is in progress, and the
oldest unexecuted request of the port is the one taken. -/
theorem engineTake_found {p : Port} {tag : Byte} {q : Request} {s s1 : State} (h : engineTake p tag q s = some s1) :
    s1.resetLow = false ∧ (∀ r : Port, s1.ports[r].resetSeq = none) ∧ ∃ f : Frame, f.b1 = tag ∧ decodeRequest f = q ∧
      (s1.ports[p].inflight.find? fun x => !x.executed) = some { frame := f, executed := false } := by
  obtain ⟨s0, f, -, hchoice, htag, hrequest, rfl⟩ := engineTake_eq_some h
  obtain ⟨hfree, hpreferred⟩ := arbiterChoice_iff.1 hchoice
  obtain ⟨hreset, hseq⟩ := engineFree_iff.1 hfree
  obtain ⟨-, hfind⟩ := candidate?_eq_some.1 hpreferred.candidate
  exact ⟨hreset, hseq, f, htag, hrequest, hfind⟩

/-- A request command that the engine does not take changes nothing (log 3). -/
theorem exec_command_idle {p : Port} {tag : Byte} {q : Request} {s : State} (h : engineTake p tag q s = none) :
    exec (q.command p tag) s = .next s := by
  cases q with
  | portClear =>
    have hexec : exec (Request.portClear.command p tag) s = execPortClear p tag s := rfl
    simp only [hexec, execPortClear, h]
  | _ => exact runRequest_idle h

/-! A whole transaction of a port (R180 to R183). -/

theorem startTransaction_busy {s : State} {p : Port} (h : s.ports[p].transaction ≠ none) :
    startTransaction p s = s := by
  obtain ⟨t, ht⟩ := Option.ne_none_iff_exists'.1 h
  simp only [startTransaction, ht]

section
variable {s : State} {p : Port} (h : s.ports[p].transaction = none)
include h

theorem startTransaction_ignored (hpins : s.ports[p].prstLow = true ∨ s.resetLow = true) :
    startTransaction p s = s.updPort p fun ps =>
      { ps with transaction := some { taken := false, out := none, carries := false, rejectShown := false } } := by
  have hlow : (s.ports[p].prstLow || s.resetLow) = true := Bool.or_eq_true_iff.2 hpins
  simp only [startTransaction, h, hlow, if_true]

theorem startTransaction_carries {r : Response} (hpin : s.ports[p].prstLow = false) (hreset : s.resetLow = false)
    (hhead : s.ports[p].headResponse? = some r) :
    startTransaction p s = s.updPort p fun ps =>
      { ps with
        transaction := some {
          taken := true, out := some (responseFrame (summary s p true) r), carries := true
          rejectShown := s.ports[p].reject } } := by
  simp only [startTransaction, h, hpin, hreset, hhead, Bool.or_self, Bool.false_eq_true, if_false]

theorem startTransaction_empty (hpin : s.ports[p].prstLow = false) (hreset : s.resetLow = false)
    (hhead : s.ports[p].headResponse? = none) :
    startTransaction p s = s.updPort p fun ps =>
      { ps with
        transaction := some {
          taken := true, out := some (emptyFrame (summary s p false)), carries := false
          rejectShown := s.ports[p].reject } } := by
  simp only [startTransaction, h, hpin, hreset, hhead, Bool.or_self, Bool.false_eq_true, if_false]

end

section
variable {ps : PortState} {t : Transaction}

theorem endTransaction_high (clocks : Nat) (f : Frame) (h : ps.transaction = none) :
    ps.endTransaction clocks f = ps := by
  simp only [PortState.endTransaction, h]

theorem endTransaction_ignored (clocks : Nat) (f : Frame) (h : ps.transaction = some t) (ht : t.taken = false) :
    ps.endTransaction clocks f = { ps with transaction := none } := by
  simp only [PortState.endTransaction, h, ht, Bool.not_false, if_true]

theorem endTransaction_miscounted {clocks : Nat} (f : Frame) (h : ps.transaction = some t) (ht : t.taken = true)
    (hclocks : clocks ≠ 96) : ps.endTransaction clocks f = { ps with transaction := none, reject := true } := by
  have hne : ¬ clocks = Config.frameClocks := hclocks
  simp only [PortState.endTransaction, h, ht, Bool.not_true, Bool.false_eq_true, if_false, if_neg hne]

theorem endTransaction_delivers (f : Frame) (h : ps.transaction = some t) (ht : t.taken = true) :
    ps.endTransaction 96 f = (({ ps with transaction := none } : PortState).deliver t).receive f := by
  simp only [PortState.endTransaction, h, ht, Bool.not_true, Bool.false_eq_true, if_false, Config.frameClocks, if_true]

theorem receive_null {f : Frame} (h : f.b0 = 0) : ps.receive f = ps := if_pos h

theorem receive_joins {f : Frame} (h : f.b0 ≠ 0) (hroom : ps.inflight.length < 4) :
    ps.receive f = { ps with inflight := ps.inflight ++ [{ frame := f, executed := false }] } :=
  (if_neg h).trans (if_pos hroom)

theorem receive_full {f : Frame} (h : f.b0 ≠ 0) (hfull : 4 ≤ ps.inflight.length) :
    ps.receive f = { ps with reject := true } := (if_neg h).trans (if_neg (Nat.not_lt.2 hfull))

end

theorem deliver_eq (ps : PortState) (t : Transaction) : ps.deliver t =
    { ps with
      inflight := if t.carries then ps.inflight.tail else ps.inflight
      responses := if t.carries then ps.responses.tail else ps.responses
      reject := ps.reject && !t.rejectShown } := by
  unfold PortState.deliver
  cases t.rejectShown <;> simp

theorem headResponse?_eq_some {ps : PortState} {r : Response} : ps.headResponse? = some r ↔
    (∃ (x : InFlight) (rest : List InFlight), ps.inflight = x :: rest ∧ x.executed = true) ∧
      ∃ rs : List Response, ps.responses = r :: rs := by
  unfold PortState.headResponse?
  cases ps.inflight with
  | nil => simp
  | cons x rest => cases h : x.executed <;> simp [h, List.head?_eq_some_iff]

theorem headResponse?_unexecuted {ps : PortState} (h : ps.inflight = [] ∨
    ∃ (x : InFlight) (rest : List InFlight), ps.inflight = x :: rest ∧ x.executed = false) :
    ps.headResponse? = none := by
  unfold PortState.headResponse?
  rcases h with h | ⟨x, rest, h, hx⟩
  · rw [h]
  · simp only [h, hx, Bool.false_eq_true, if_false]

/-- An update that changes nothing at its port changes nothing. -/
theorem updPort_same {s : State} {p : Port} {f : PortState → PortState} (h : f s.ports[p] = s.ports[p]) :
    s.updPort p f = s := by
  unfold State.updPort
  rw [h]
  simp

theorem exec_transactionEnd {s : State} {p : Port} {clocks : Nat} {f : Frame} {g : PortState → PortState}
    (h : s.ports[p].endTransaction clocks f = g s.ports[p]) :
    exec (.transactionEnd p clocks f) s = .next (s.updPort p g) := congrArg _ (updPort_congr h)

/-- Settles O46: the fall of CS# by the pins and the head of the queue, and its rise by the transaction that is open. -/
theorem transactionsChooseDeliverAndTake : Obligations.TransactionsChooseDeliverAndTake := by
  refine ⟨fun s p => ⟨fun hbusy => ?busy, fun h hpins => ?ignored,
      fun h hpin hreset => ⟨fun x rest r rs hin hx hrs => ?carries, fun hhead => ?empty⟩⟩,
    fun s p clocks f => ⟨fun h => ?high, fun t h => ⟨fun ht => ?untaken, fun ht hclocks => ?miscounted,
      fun ht hclocks => ⟨fun hnull => ?null, fun hframe hroom => ?joins, fun hframe hfull => ?full⟩⟩⟩⟩
  case busy => exact congrArg _ (startTransaction_busy hbusy)
  case ignored => exact congrArg _ (startTransaction_ignored h hpins)
  case carries =>
    exact congrArg _ (startTransaction_carries h hpin hreset (headResponse?_eq_some.2 ⟨⟨x, rest, hin, hx⟩, rs, hrs⟩))
  case empty => exact congrArg _ (startTransaction_empty h hpin hreset (headResponse?_unexecuted hhead))
  case high => exact congrArg _ (updPort_same (endTransaction_high clocks f h))
  case untaken => exact exec_transactionEnd (endTransaction_ignored clocks f h ht)
  case miscounted => exact exec_transactionEnd (endTransaction_miscounted f h ht hclocks)
  all_goals
    subst hclocks
    refine exec_transactionEnd ((endTransaction_delivers f h ht).trans ?_)
    rw [deliver_eq]
  case null => exact receive_null hnull
  case joins => exact receive_joins hframe hroom
  case full => exact receive_full hframe hfull

/-! Request frames (R186). -/

@[simp] theorem ofBytes2_bytes (h : Half) : ofBytes2 (hiByte h) (loByte h) = h :=
  BitVec.extractLsb'_append_extractLsb'

@[simp] theorem ofBytes4_bytes (w : BitVec 32) :
    ofBytes4 (hiByte (hiHalf w)) (loByte (hiHalf w)) (hiByte (loHalf w)) (loByte (loHalf w)) = w := by
  have hjoin : ∀ a b c d : Byte, ofBytes4 a b c d = ofBytes2 a b ++ ofBytes2 c d := fun a b c d =>
    BitVec.append_assoc (x₁ := a ++ b)
  rw [hjoin, ofBytes2_bytes, ofBytes2_bytes]
  exact BitVec.extractLsb'_append_extractLsb'

@[simp] theorem hiNibble_append (a b : BitVec 4) : hiNibble (a ++ b) = a := BitVec.extractLsb'_append_eq_left

@[simp] theorem loNibble_append (a b : BitVec 4) : loNibble (a ++ b) = b := BitVec.extractLsb'_append_eq_right

/-- A field of ten bits stands in the low bits of its two bytes (R186). -/
theorem extractLsb'_setWidth (x : BitVec 10) : (x.setWidth 16).extractLsb' 0 10 = x := by
  refine BitVec.eq_of_getLsbD_eq fun i hi => ?_
  simp [hi, Nat.lt_trans hi]

/-- The byte of WRITE_RATES that carries may-wait and the mode (R186). -/
theorem modeByte_fields (mayWait : Bool) (m : BitVec 4) :
    let b := BitVec.ofBool mayWait ++ (0 : BitVec 3) ++ m
    loNibble b = m ∧ b.getLsbD 7 = mayWait := by
  refine ⟨loNibble_append _ m, ?_⟩
  simp only [BitVec.getLsbD_append]
  simp

/-- The byte of WRITE_WINDOW that carries the flags and the window (R186). -/
theorem windowByte_fields (enabled daily lock : Bool) (w : BitVec 4) :
    let b := BitVec.ofBool enabled ++ BitVec.ofBool daily ++ BitVec.ofBool lock ++ (0 : BitVec 1) ++ w
    loNibble b = w ∧ b.getLsbD 7 = enabled ∧ b.getLsbD 6 = daily ∧ b.getLsbD 5 = lock := by
  refine ⟨loNibble_append _ w, ?_⟩
  simp only [BitVec.getLsbD_append]
  simp

theorem flagsByte_bit (a : Bool) : (flagsByte [a])[0] = a := by
  revert a
  decide

/-- The flags of WRITE_CLASS, each in the bit of its place (R186). -/
theorem flagsByte_bits (a b c : Bool) : (flagsByte [a, b, c]).getLsbD 0 = a ∧
    (flagsByte [a, b, c]).getLsbD 1 = b ∧ (flagsByte [a, b, c]).getLsbD 2 = c := by
  revert a b c
  decide

section
variable (tag : Byte)

theorem writeClassArgs_encode (a : WriteClassArgs) : writeClassArgs (encodeRequest tag (.writeClass a)) = a := by
  obtain ⟨h0, h1, h2⟩ := flagsByte_bits a.preempt a.vulnerable a.continuous
  simp only [writeClassArgs, encodeRequest, frameOf, bytes2, List.cons_append, List.nil_append, List.getD_cons_zero,
    List.getD_cons_succ, ofBytes2_bytes, h0, h1, h2]

theorem writeRatesArgs_encode (a : WriteRatesArgs) : writeRatesArgs (encodeRequest tag (.writeRates a)) = a := by
  obtain ⟨hmode, hwait⟩ := modeByte_fields a.mayWait a.mode
  simp only [writeRatesArgs, encodeRequest, frameOf, bytes2, List.cons_append, List.nil_append, List.getD_cons_zero,
    List.getD_cons_succ, ofBytes2_bytes, hiNibble_append, loNibble_append, extractLsb'_setWidth, hmode, hwait]

theorem writeLimitsArgs_encode (a : WriteLimitsArgs) : writeLimitsArgs (encodeRequest tag (.writeLimits a)) = a := by
  simp only [writeLimitsArgs, encodeRequest, frameOf, bytes2, List.cons_append, List.nil_append, List.getD_cons_zero,
    List.getD_cons_succ, ofBytes2_bytes, extractLsb'_setWidth]

theorem writeWindowArgs_encode (a : WriteWindowArgs) : writeWindowArgs (encodeRequest tag (.writeWindow a)) = a := by
  obtain ⟨hwindow, henabled, hdaily, hlock⟩ := windowByte_fields a.enabled a.daily a.lock a.window
  simp only [writeWindowArgs, encodeRequest, frameOf, bytes4, bytes2, List.cons_append, List.nil_append,
    List.getD_cons_zero, List.getD_cons_succ, ofBytes2_bytes, ofBytes4_bytes, hiNibble_append, loNibble_append,
    hwindow, henabled, hdaily, hlock]

end

theorem decodeRequest_unknown {f : Frame} (h : requestCodes.contains f.b0 = false) :
    decodeRequest f = .unknown f.b0 := by
  rw [← BitVec.setWidth_eq f.b0, ← BitVec.ofNat_toNat] at h
  unfold decodeRequest
  split
  case h_28 => rfl
  all_goals
    next hcode =>
      rw [hcode] at h
      exact absurd h (by decide)

theorem unknown_wf {code : Byte} (h : (Request.unknown code).wf = true) :
    code ≠ 0 ∧ requestCodes.contains code = false := by
  simpa [Request.wf] using h

theorem decodeRequest_encode (tag : Byte) {q : Request} (hq : q.wf = true) :
    decodeRequest (encodeRequest tag q) = q := by
  cases q with
  | unknown code => exact decodeRequest_unknown (unknown_wf hq).2
  | writeClass a => exact congrArg Request.writeClass (writeClassArgs_encode tag a)
  | writeRates a => exact congrArg Request.writeRates (writeRatesArgs_encode tag a)
  | writeLimits a => exact congrArg Request.writeLimits (writeLimitsArgs_encode tag a)
  | writeWindow a => exact congrArg Request.writeWindow (writeWindowArgs_encode tag a)
  | fetchNotice | readEvents | readPool | readStatus | readTime | portClear | readIdent | readClass | rearm
  | readPolicy => rfl
  | query h => exact congrArg Request.query (ofBytes2_bytes h)
  | setEnables h => exact congrArg Request.setEnables (ofBytes2_bytes h)
  | barSet h => exact congrArg Request.barSet (ofBytes2_bytes h)
  | barClear h => exact congrArg Request.barClear (ofBytes2_bytes h)
  | writeCapacity h => exact congrArg Request.writeCapacity (ofBytes2_bytes h)
  | admitCall a => simp [decodeRequest, encodeRequest, frameOf, bytes2, flagsByte_bit]
  | release | cancel | settle => simp [decodeRequest, encodeRequest, frameOf, bytes2, recordArgs]
  | writeThresholds a => simp [decodeRequest, encodeRequest, frameOf, bytes2, writeThresholdsArgs]
  | selectProfile a => simp [decodeRequest, encodeRequest, frameOf, bytes2]
  | writeWindowBars a => simp [decodeRequest, encodeRequest, frameOf, bytes2]
  | setTime a => simp [decodeRequest, encodeRequest, frameOf, bytes4, bytes2]

theorem encodeRequest_tag (tag : Byte) (q : Request) : (encodeRequest tag q).b1 = tag := by
  cases q <;> rfl

theorem encodeRequest_not_null (tag : Byte) {q : Request} (hq : q.wf = true) : (encodeRequest tag q).b0 ≠ 0 := by
  cases q with
  | unknown code => exact (unknown_wf hq).1
  | _ => simp [encodeRequest, frameOf]

/-- Settles O4: a request is read back field by field, and the code of each is not NULL. -/
theorem requestFramesRoundTrip : Obligations.RequestFramesRoundTrip := fun tag q hq =>
  ⟨decodeRequest_encode tag hq, encodeRequest_tag tag q, encodeRequest_not_null tag hq⟩

/-! A request command as a whole (R180 to R183, R187, R189, R194). -/

/-- What a transaction of 96 clocks leaves of a port that has a place for its frame. -/
def handsIn (f : Frame) (ps : PortState) : PortState :=
  { ps with
    inflight := (if ps.headResponse?.isSome then ps.inflight.tail else ps.inflight) ++
      [{ frame := f, executed := false }]
    responses := if ps.headResponse?.isSome then ps.responses.tail else ps.responses
    reject := false }

theorem endTransaction_handsIn {ps : PortState} {t : Transaction} {f : Frame} (hcs : ps.transaction = none)
    (ht : t.taken = true) (hcarries : t.carries = ps.headResponse?.isSome) (hshown : t.rejectShown = ps.reject)
    (hframe : f.b0 ≠ 0) (hroom : ps.inflight.length < 4) :
    ({ ps with transaction := some t } : PortState).endTransaction 96 f = handsIn f ps := by
  have hplace : (if ps.headResponse?.isSome then ps.inflight.tail else ps.inflight).length < 4 := by
    split
    · rw [List.length_tail]
      omega
    · exact hroom
  refine (endTransaction_delivers f rfl ht).trans ?_
  rw [deliver_eq, hcarries, hshown]
  refine (receive_joins hframe hplace).trans ?_
  rw [Bool.and_not_self, handsIn, hcs]

section
variable {s : State} {p : Port} {f : Frame}

theorem transact_handsIn (hcs : s.ports[p].transaction = none) (hpin : s.ports[p].prstLow = false)
    (hreset : s.resetLow = false) (hframe : f.b0 ≠ 0) (hroom : s.ports[p].inflight.length < 4) :
    transact p f s = s.updPort p (handsIn f) := by
  unfold transact endTransaction
  cases hhead : s.ports[p].headResponse? with
  | none =>
    rw [startTransaction_empty hcs hpin hreset hhead, updPort_updPort]
    exact updPort_congr (endTransaction_handsIn hcs rfl (by rw [hhead]; rfl) rfl hframe hroom)
  | some r =>
    rw [startTransaction_carries hcs hpin hreset hhead, updPort_updPort]
    exact updPort_congr (endTransaction_handsIn hcs rfl (by rw [hhead]; rfl) rfl hframe hroom)

theorem find?_handsIn {ps : PortState} (h : ∀ x ∈ ps.inflight, x.executed = true) :
    ((handsIn f ps).inflight.find? fun x => !x.executed) = some { frame := f, executed := false } := by
  have hdone : ∀ x ∈ (if ps.headResponse?.isSome then ps.inflight.tail else ps.inflight), ¬ (!x.executed) = true := by
    intro x hx
    have hmem : x ∈ ps.inflight := by
      split at hx
      · exact List.mem_of_mem_tail hx
      · exact hx
    simp [h x hmem]
  simp only [handsIn, List.find?_append, List.find?_eq_none.2 hdone]
  rfl

/-- A request that is handed in while none waits anywhere is the arbiter's choice. -/
theorem arbiterChoice_handsIn (hreset : s.resetLow = false) (hseq : ∀ r : Port, s.ports[r].resetSeq = none)
    (hnone : ∀ r : Port, s.candidate? r = none) (hpin : s.ports[p].prstLow = false) :
    arbiterChoice (s.updPort p (handsIn f)) = some (p, f) := by
  have hself : (s.updPort p (handsIn f)).ports[p] = handsIn f s.ports[p] := State.updPort_self s p _
  have hother : ∀ q : Port, q ≠ p → (s.updPort p (handsIn f)).ports[q] = s.ports[q] := fun q =>
    State.updPort_other s p q _
  have hcandidate : (s.updPort p (handsIn f)).candidate? p = some f :=
    candidate?_eq_some.2 (by rw [hself]; exact ⟨hpin, find?_handsIn ((candidate?_eq_none hpin).1 (hnone p))⟩)
  have honly : ∀ (q : Port) (g : Frame), (s.updPort p (handsIn f)).candidate? q = some g → q = p ∧ g = f := by
    intro q g hg
    by_cases hq : q = p
    · exact ⟨hq, Option.some.inj ((hq ▸ hg.symm).trans hcandidate)⟩
    · have hsame : (s.updPort p (handsIn f)).candidate? q = s.candidate? q := by
        simp only [State.candidate?, hother q hq]
      rw [hsame, hnone q] at hg
      cases hg
  refine arbiterChoice_iff.2 ⟨engineFree_iff.2 ⟨hreset, fun q => ?_⟩, hcandidate, fun q g hg => ?_, fun q g hg _ => ?_⟩
  · by_cases hq : q = p
    · rw [hq, hself]
      exact hseq p
    · rw [hother q hq]
      exact hseq q
  · rw [(honly q g hg).2]
    exact id
  · exact Nat.le_of_eq (congrArg _ (honly q g hg).1.symm)
end

/-- Settles O3: a request that waits is claimed by the choice, and one that is handed in is the choice. -/
theorem engineTakesTheChosenRequest : Obligations.EngineTakesTheChosenRequest := by
  refine ⟨fun s p r f tag q hchoice => ⟨?chosen, fun hother => exec_command_idle ?other⟩,
    fun s p tag q hq hreset hseq hnone hpin hcs hroom => ?handedIn⟩
  case chosen =>
    rintro ⟨rfl, htag, hrequest⟩
    rw [engineTake_waiting hchoice, claim_of_choice hchoice htag hrequest]
  case other =>
    rw [engineTake_waiting hchoice]
    simp only [claim, hchoice, spells_iff, if_neg hother]
  case handedIn =>
    have hidle : arbiterChoice s = none := by
      refine Option.eq_none_iff_forall_ne_some.2 fun c hc => ?_
      exact absurd ((hnone c.1).symm.trans (arbiterChoice_preferred hc).2.candidate) (by simp)
    rw [engineTake_handsIn hidle hcs, transact_handsIn hcs hpin hreset (encodeRequest_not_null tag hq) hroom,
      claim_of_choice (arbiterChoice_handsIn hreset hseq hnone hpin) (encodeRequest_tag tag q)
        (decodeRequest_encode tag hq)]
    rfl

/-- Settles O28: the answer is a constant but for the port. -/
theorem readIdentReportsThePart : Obligations.ReadIdentReportsThePart := fun _ _ _ _ h => runRequest_answered h rfl

/-! BAD_REQUEST (R149, R187). -/

section
variable {α β γ : Type} {i j l k : Nat} {x : Option α} {y : Option β} {z : Option γ}

/-- The first byte out of range of one argument, of two and of three: those before it are in range. -/
theorem firstOut_one (h : firstOut [(i, x.isSome)] = some k) : x = none ∧ k = i := by
  cases x with
  | none => exact ⟨rfl, (Option.some.inj h).symm⟩
  | some => cases h

theorem firstOut_two (h : firstOut [(i, x.isSome), (j, y.isSome)] = some k) :
    x = none ∧ k = i ∨ (∃ a, x = some a) ∧ y = none ∧ k = j := by
  cases x with
  | none => exact .inl ⟨rfl, (Option.some.inj h).symm⟩
  | some a => exact .inr ⟨⟨a, rfl⟩, firstOut_one h⟩

theorem firstOut_three (h : firstOut [(i, x.isSome), (j, y.isSome), (l, z.isSome)] = some k) :
    x = none ∧ k = i ∨ (∃ a, x = some a) ∧ (y = none ∧ k = j ∨ (∃ b, y = some b) ∧ z = none ∧ k = l) := by
  cases x with
  | none => exact .inl ⟨rfl, (Option.some.inj h).symm⟩
  | some a => exact .inr ⟨⟨a, rfl⟩, firstOut_two h⟩

end

theorem recordOf?_isSome (h : Half) : decide (h.toNat < 1024) = (recordOf? h).isSome := by
  unfold recordOf?
  split <;> simp_all [Config.records]

theorem windowByteOf?_isSome (b : Byte) : decide (b.toNat < 8) = (windowByteOf? b).isSome := by
  unfold windowByteOf?
  split <;> simp_all

section
variable {p : Port} {s : State} {k : Nat}

theorem runAdmit_bad {a : AdmitArgs} (h : (Request.admitCall a).firstBadByte? = some k) :
    runAdmit p a s = badRequest s k := by
  rw [Request.firstBadByte?, classOf?_isSome] at h
  obtain ⟨hc, rfl⟩ := firstOut_one h
  simp only [runAdmit, hc]

/-- The three requests that name a record have the range of its id before every other check (R30). -/
theorem named_bad {a : RecordArgs} (h : firstOut [(2, decide (a.id.toNat < 1024))] = some k) :
    named p a s = .refused (badRequest s k) := by
  rw [recordOf?_isSome] at h
  obtain ⟨hid, rfl⟩ := firstOut_one h
  simp only [named, hid]

theorem runRelease_bad {a : RecordArgs} (h : (Request.release a).firstBadByte? = some k) :
    runRelease p a s = badRequest s k := by
  simp only [runRelease, named_bad h]

theorem runCancel_bad {a : RecordArgs} (h : (Request.cancel a).firstBadByte? = some k) :
    runCancel p a s = badRequest s k := by
  simp only [runCancel, named_bad h]

theorem runSettle_bad {a : RecordArgs} (h : (Request.settle a).firstBadByte? = some k) :
    runSettle p a s = badRequest s k := by
  simp only [runSettle, named_bad h]

theorem runQuery_bad {id : Half} (h : (Request.query id).firstBadByte? = some k) : runQuery id s = badRequest s k := by
  rw [Request.firstBadByte?, recordOf?_isSome] at h
  obtain ⟨hid, rfl⟩ := firstOut_one h
  simp only [runQuery, hid]

theorem runReadClass_bad {b : Byte} (h : (Request.readClass b).firstBadByte? = some k) :
    runReadClass b s = badRequest s k := by
  rw [Request.firstBadByte?, classOf?_isSome] at h
  obtain ⟨hc, rfl⟩ := firstOut_one h
  simp only [runReadClass, hc]

theorem runRearm_bad {b : Byte} (h : (Request.rearm b).firstBadByte? = some k) : runRearm b s = badRequest s k := by
  rw [Request.firstBadByte?, classOf?_isSome] at h
  obtain ⟨hc, rfl⟩ := firstOut_one h
  simp only [runRearm, hc]

theorem runWriteClass_bad {a : WriteClassArgs} (h : (Request.writeClass a).firstBadByte? = some k) :
    runWriteClass p a s = badRequest s k := by
  rw [Request.firstBadByte?, classOf?_isSome, kindOf?_isSome] at h
  rcases firstOut_two h with ⟨hc, rfl⟩ | ⟨⟨c, hc⟩, hk, rfl⟩
  · simp only [runWriteClass, hc]
  · simp only [runWriteClass, hc, hk]

theorem runWriteRates_bad {a : WriteRatesArgs} (h : (Request.writeRates a).firstBadByte? = some k) :
    runWriteRates p a s = badRequest s k := by
  rw [Request.firstBadByte?, profileOf?_isSome, classOf?_isSome, modeOf?_isSome] at h
  rcases firstOut_three h with ⟨hp, rfl⟩ | ⟨⟨pr, hp⟩, ⟨hc, rfl⟩ | ⟨⟨c, hc⟩, hm, rfl⟩⟩
  · simp only [runWriteRates, hp]
  · simp only [runWriteRates, hp, hc]
  · simp only [runWriteRates, hp, hc, hm]

theorem runWriteThresholds_bad {a : WriteThresholdsArgs} (h : (Request.writeThresholds a).firstBadByte? = some k) :
    runWriteThresholds p a s = badRequest s k := by
  rw [Request.firstBadByte?, profileOf?_isSome] at h
  obtain ⟨hp, rfl⟩ := firstOut_one h
  simp only [runWriteThresholds, hp]

theorem runWriteLimits_bad {a : WriteLimitsArgs} (h : (Request.writeLimits a).firstBadByte? = some k) :
    runWriteLimits p a s = badRequest s k := by
  rw [Request.firstBadByte?, profileOf?_isSome] at h
  obtain ⟨hp, rfl⟩ := firstOut_one h
  simp only [runWriteLimits, hp]

theorem runSelectProfile_bad {a : SelectProfileArgs} (h : (Request.selectProfile a).firstBadByte? = some k) :
    runSelectProfile p a s = badRequest s k := by
  rw [Request.firstBadByte?, profileOf?_isSome] at h
  obtain ⟨hp, rfl⟩ := firstOut_one h
  simp only [runSelectProfile, hp]

theorem runWriteWindow_bad {a : WriteWindowArgs} (h : (Request.writeWindow a).firstBadByte? = some k) :
    runWriteWindow p a s = badRequest s k := by
  rw [Request.firstBadByte?, windowOf?_isSome, windowProfileOf?_isSome] at h
  rcases firstOut_two h with ⟨hw, rfl⟩ | ⟨⟨w, hw⟩, hp, rfl⟩
  · simp only [runWriteWindow, hw]
  · simp only [runWriteWindow, hw, hp]

theorem runWriteWindowBars_bad {a : WriteWindowBarsArgs} (h : (Request.writeWindowBars a).firstBadByte? = some k) :
    runWriteWindowBars p a s = badRequest s k := by
  rw [Request.firstBadByte?, windowOf?_isSome] at h
  obtain ⟨hw, rfl⟩ := firstOut_one h
  simp only [runWriteWindowBars, hw]

/-- The second argument of a window item is its part, 0 or 1 (R149). -/
theorem policyItem_bad {a : ReadPolicyArgs} (h : (Request.readPolicy a).firstBadByte? = some k) :
    policyItem a s = .error k := by
  unfold Request.firstBadByte? at h
  unfold policyItem
  dsimp only at h ⊢
  generalize a.item.toNat = item at h ⊢
  match item with
  | 0 =>
    change firstOut [(3, decide (a.arg1.toNat < 16))] = some k at h
    rw [classOf?_isSome] at h
    obtain ⟨hc, rfl⟩ := firstOut_one h
    simp only [hc]
  | 1 =>
    change firstOut [(3, decide (a.arg1.toNat < 4)), (4, decide (a.arg2.toNat < 16))] = some k at h
    rw [profileOf?_isSome, classOf?_isSome] at h
    rcases firstOut_two h with ⟨hp, rfl⟩ | ⟨⟨pr, hp⟩, hc, rfl⟩
    · simp only [hp]
    · simp only [hp, hc]
  | 2 | 3 =>
    change firstOut [(3, decide (a.arg1.toNat < 4))] = some k at h
    rw [profileOf?_isSome] at h
    obtain ⟨hp, rfl⟩ := firstOut_one h
    simp only [hp]
  | 4 => cases h
  | 5 =>
    change firstOut [(3, decide (a.arg1.toNat < 8)), (4, decide (a.arg2.toNat < 2))] = some k at h
    rw [windowByteOf?_isSome] at h
    cases hw : windowByteOf? a.arg1 with
    | none =>
      rw [hw] at h
      cases h
      rfl
    | some w =>
      rw [hw] at h
      dsimp only
      generalize a.arg2.toNat = part at h ⊢
      match part with
      | 0 | 1 => cases h
      | m + 2 =>
        rw [decide_eq_false (by omega : ¬ m + 2 < 2)] at h
        cases h
        rfl
  | n + 6 =>
    cases h
    rfl

end

/-- A request is answered BAD_REQUEST with the number of its first bad byte. -/
theorem exec_command_bad {p : Port} {tag : Byte} {q : Request} {k : Nat} {s s1 : State}
    (hbad : q.firstBadByte? = some k) (h : engineTake p tag q s = some s1) :
    exec (q.command p tag) s = .next (s1.respond p .badRequest [byteOf k]) := by
  cases q with
  | admitCall a => exact runRequest_answered h (runAdmit_bad hbad)
  | release a => exact runRequest_answered h (runRelease_bad hbad)
  | cancel a => exact runRequest_answered h (runCancel_bad hbad)
  | settle a => exact runRequest_answered h (runSettle_bad hbad)
  | query id => exact runRequest_answered h (runQuery_bad hbad)
  | readClass b => exact runRequest_answered h (runReadClass_bad hbad)
  | rearm b => exact runRequest_answered h (runRearm_bad hbad)
  | writeClass a => exact runRequest_answered h (runWriteClass_bad hbad)
  | writeRates a => exact runRequest_answered h (runWriteRates_bad hbad)
  | writeThresholds a => exact runRequest_answered h (runWriteThresholds_bad hbad)
  | writeLimits a => exact runRequest_answered h (runWriteLimits_bad hbad)
  | selectProfile a => exact runRequest_answered h (runSelectProfile_bad hbad)
  | writeWindow a => exact runRequest_answered h (runWriteWindow_bad hbad)
  | writeWindowBars a => exact runRequest_answered h (runWriteWindowBars_bad hbad)
  | readPolicy a => exact runRequest_answered h (by simp only [runReadPolicy, policyItem_bad hbad]; rfl)
  | unknown code =>
    cases hbad
    exact runRequest_answered h rfl
  | _ => cases hbad

/-- Settles O5: a known code by its first bad byte, and an unknown one, whose first bad byte is 0. -/
theorem badRequestChangesNothing : Obligations.BadRequestChangesNothing := fun _ _ _ _ =>
  ⟨fun _ _ hbad h => exec_command_bad hbad h, fun code h => exec_command_bad (q := .unknown code) rfl h⟩

/-! RESET# (R180, R191). -/

theorem startTransaction_resetLow (p : Port) (s : State) : (startTransaction p s).resetLow = s.resetLow := by
  unfold startTransaction
  dsimp only
  split <;> rfl

theorem engineTake_resetLow {p : Port} {tag : Byte} {q : Request} {s s1 : State} (h : engineTake p tag q s = some s1) :
    s1.resetLow = s.resetLow := by
  obtain ⟨s0, f, hs0, -, -, -, rfl⟩ := engineTake_eq_some h
  rcases hs0 with rfl | rfl
  · rfl
  · exact startTransaction_resetLow p s

theorem engineTake_whileReset {p : Port} {tag : Byte} {q : Request} {s : State} (h : s.resetLow = true) :
    engineTake p tag q s = none := by
  refine Option.eq_none_iff_forall_ne_some.2 fun s1 htake => ?_
  obtain ⟨hreset, -⟩ := engineTake_found htake
  rw [engineTake_resetLow htake, h] at hreset
  cases hreset

/-- Settles O50: an event is held by its own test of RESET#, and a request by the engine, which does not take it. -/
theorem resetHoldsEveryBlock : Obligations.ResetHoldsEveryBlock := by
  refine fun s => ⟨rfl, fun h i hi => ?_⟩
  rcases hi with rfl | rfl | rfl | rfl | ⟨id, rfl | rfl | rfl⟩ | ⟨p, rfl⟩ | ⟨q, p, tag, rfl⟩
  case inr.inr.inr.inr.inr.inr => exact exec_command_idle (engineTake_whileReset h)
  all_goals exact if_pos h

/-! PORT_CLEAR (R192). -/

theorem currentTag_of_find {xs : List InFlight} {f : Frame}
    (h : (xs.find? fun x => !x.executed) = some { frame := f, executed := false }) : currentTag xs = f.b1 := by
  induction xs with
  | nil => cases h
  | cons x rest ih =>
    cases hx : x.executed with
    | true =>
      simp only [List.find?_cons, hx, Bool.not_true] at h
      simp only [currentTag, hx, if_true]
      exact ih h
    | false =>
      simp only [List.find?_cons, hx, Bool.not_false, Option.some.injEq] at h
      simp only [currentTag, Bool.false_eq_true, if_false, h]

theorem length_recordsOf (p : Port) (s : State) :
    (recordsOf p s).length = (s.table.records.filter fun e => e.2.owner = p).length := by
  simp only [recordsOf, List.length_map]

/-- A sequence goes on while the port owns a record, and is over where it owns none (R39). -/
theorem finishIfDone_eq (p : Port) (s : State) :
    finishIfDone p s = if (recordsOf p s).length = 0 then s.updPort p (·.finishReset) else s := by
  simp only [finishIfDone, List.isEmpty_iff_length_eq_zero]

section
variable {ps : PortState} {f : Frame} (r : Response)
  (h : (ps.inflight.find? fun x => !x.executed) = some { frame := f, executed := false })
include h

theorem beginClear_eq : ps.beginClear r =
    { ps with
      inflight := [{ frame := f, executed := false }]
      responses := []
      reject := false
      transaction := ps.transaction.map fun t => { t with carries := false }
      resetSeq := some (.byClear (some r)) } := by
  simp only [PortState.beginClear, h, Option.toList_some]

theorem finishReset_beginClear : (ps.beginClear r).finishReset =
    { ps with
      inflight := [{ frame := f, executed := true }]
      responses := [r]
      reject := false
      transaction := ps.transaction.map fun t => { t with carries := false }
      resetSeq := none
      events := 0
      enables := 0b111
      stalledArm := true
      exhaustedArm := true } := by
  rw [beginClear_eq r h]
  rfl

end

/-- Settles O49: the sequence of the PORT_CLEAR, by the records that the port owns. -/
theorem portClearKeepsOnlyItself : Obligations.PortClearKeepsOnlyItself := by
  intro s s1 p tag h owned answer uncarried
  obtain ⟨-, -, f, htag, hrequest, hfind⟩ := engineTake_found h
  have hanswer : clearResponse p s1 = answer := by
    simp only [clearResponse, currentTag_of_find hfind, htag, length_recordsOf]
    rfl
  have hexec : exec (.portClear p tag) s = .next (finishIfDone p (s1.updPort p (·.beginClear answer))) := by
    have hclear : exec (.portClear p tag) s = execPortClear p tag s := rfl
    simp only [hclear, execPortClear, h, runPortClear, hanswer]
  have howned : (recordsOf p (s1.updPort p (·.beginClear answer))).length = owned := length_recordsOf p s1
  rw [hexec, finishIfDone_eq, howned]
  refine ⟨f, htag, hrequest, hfind, fun howns => ?_, fun hnone => ?_⟩
  · rw [if_neg (Nat.pos_iff_ne_zero.1 howns)]
    exact congrArg _ (updPort_congr (beginClear_eq answer hfind))
  · rw [if_pos hnone, updPort_updPort]
    exact congrArg _ (updPort_congr (finishReset_beginClear answer hfind))

/-! The books of a port's queues (R181, R182, R184, R192). -/

/-- The requests of a queue that have been executed. -/
def executedOf (xs : List InFlight) : List InFlight := xs.filter (·.executed)

theorem executedFirst_iff {xs : List InFlight} :
    executedFirst xs = true ↔ xs.Pairwise fun x y => y.executed = true → x.executed = true := by
  induction xs with
  | nil => simp [executedFirst]
  | cons x rest ih =>
    cases hx : x.executed with
    | true => simp [executedFirst, hx, ih]
    | false =>
      simp only [executedFirst, hx, Bool.false_eq_true, if_false, List.all_eq_true, Bool.not_eq_true',
        List.pairwise_cons, imp_false, Bool.not_eq_true]
      refine ⟨fun h => ⟨h, List.pairwise_of_forall_mem_list fun y _ z hz hdone => ?_⟩, And.left⟩
      exact absurd hdone (by simp [h z hz])

theorem length_markExecuted (xs : List InFlight) : (markExecuted xs).length = xs.length := by
  induction xs with
  | nil => rfl
  | cons x rest ih =>
    unfold markExecuted
    split
    · rw [List.length_cons, List.length_cons, ih]
    · rfl

/-- Marking executes one request of a queue that has one to execute. -/
theorem length_executedOf_mark {xs : List InFlight} (h : ∃ x ∈ xs, x.executed = false) :
    (executedOf (markExecuted xs)).length = (executedOf xs).length + 1 := by
  induction xs with
  | nil => simp at h
  | cons x rest ih =>
    cases hx : x.executed with
    | true =>
      have hrest : ∃ y ∈ rest, y.executed = false := by simpa [hx] using h
      simpa [executedOf, markExecuted, hx] using ih hrest
    | false => simp [executedOf, markExecuted, hx]

theorem pairwise_markExecuted {xs : List InFlight}
    (h : xs.Pairwise fun x y => y.executed = true → x.executed = true) :
    (markExecuted xs).Pairwise fun x y => y.executed = true → x.executed = true := by
  induction h with
  | nil => exact .nil
  | cons hx hrest ih =>
    unfold markExecuted
    split
    · next hdone => exact .cons (fun _ _ _ => hdone) ih
    · exact .cons (fun _ _ _ => rfl) hrest

/-- The books that `PortState.queuesAgree` tests, as propositions. -/
structure QueueBooks (ps : PortState) : Prop where
  room : ps.inflight.length ≤ 4
  order : ps.inflight.Pairwise fun x y => y.executed = true → x.executed = true
  answered : (executedOf ps.inflight).length = ps.responses.length
  carried : ∀ t : Transaction, ps.transaction = some t → t.carries = true → ps.responses ≠ []
  clearing : ∀ r : Response, ps.resetSeq = some (.byClear (some r)) → ∃ x ∈ ps.inflight, x.executed = false

theorem queuesAgree_iff {ps : PortState} : ps.queuesAgree = true ↔ QueueBooks ps := by
  unfold PortState.queuesAgree
  simp only [Bool.and_eq_true, decide_eq_true_eq, beq_iff_eq, executedFirst_iff]
  have hcarried : (ps.transaction.all fun t => !t.carries || !ps.responses.isEmpty) = true ↔
      ∀ t : Transaction, ps.transaction = some t → t.carries = true → ps.responses ≠ [] := by
    cases ps.transaction with
    | none => simp
    | some t => cases hc : t.carries <;> simp [hc]
  rw [hcarried]
  constructor
  · rintro ⟨⟨⟨⟨hroom, horder⟩, hanswered⟩, hcarry⟩, hclear⟩
    exact ⟨hroom, horder, hanswered, hcarry, fun r hr => by simpa [hr] using hclear⟩
  · rintro ⟨hroom, horder, hanswered, hcarry, hclear⟩
    refine ⟨⟨⟨⟨hroom, horder⟩, hanswered⟩, hcarry⟩, ?_⟩
    split
    · next r hr => simpa using hclear r hr
    all_goals rfl

theorem queuesAgree_iff_books {s : State} : QueuesAgree s ↔ ∀ p : Port, QueueBooks s.ports[p] :=
  forall_congr' fun _ => queuesAgree_iff

namespace QueueBooks
variable {ps : PortState}

/-- A port with nothing in flight, nothing to deliver and no answer of a PORT_CLEAR to wait for. -/
theorem of_empty (hin : ps.inflight = []) (hout : ps.responses = [])
    (hcs : ∀ t : Transaction, ps.transaction = some t → t.carries = false)
    (hseq : ∀ r : Response, ps.resetSeq ≠ some (.byClear (some r))) : QueueBooks ps where
  room := by simp [hin]
  order := by simp [hin]
  answered := by rw [hin, hout]; rfl
  carried t ht hc := absurd (hcs t ht) (by simp [hc])
  clearing r hr := absurd hr (hseq r)

/-- Where a response is queued, the oldest request has been executed. -/
theorem head_executed (h : QueueBooks ps) (hout : ps.responses ≠ []) :
    ∃ (x : InFlight) (rest : List InFlight), ps.inflight = x :: rest ∧ x.executed = true := by
  have hsome : executedOf ps.inflight ≠ [] := by
    rw [← List.length_pos_iff, h.answered, List.length_pos_iff]
    exact hout
  obtain ⟨y, hy⟩ := List.exists_mem_of_ne_nil _ hsome
  obtain ⟨hmem, hdone⟩ := List.mem_filter.1 hy
  have horder := h.order
  cases hin : ps.inflight with
  | nil => simp [hin] at hmem
  | cons x rest =>
    rw [hin] at hmem horder
    rcases List.mem_cons.1 hmem with rfl | hmem
    · exact ⟨_, _, rfl, hdone⟩
    · exact ⟨_, _, rfl, (List.pairwise_cons.1 horder).1 y hmem hdone⟩

/-- The transaction of a port changes to one that carries no response. -/
theorem setTransaction {o : Option Transaction} (h : QueueBooks ps)
    (ho : ∀ t : Transaction, o = some t → t.carries = false) : QueueBooks { ps with transaction := o } :=
  ⟨h.room, h.order, h.answered, fun t ht hc => absurd (ho t ht) (by simp [hc]), h.clearing⟩

theorem receive (h : QueueBooks ps) (f : Frame) : QueueBooks (ps.receive f) := by
  by_cases hnull : f.b0 = 0
  · rw [receive_null hnull]
    exact h
  · rcases Nat.lt_or_ge ps.inflight.length 4 with hroom | hfull
    · rw [receive_joins hnull hroom]
      refine ⟨?_, ?_, ?_, h.carried, fun r hr => ?_⟩
      · rw [List.length_append]
        exact hroom
      · exact List.pairwise_append.2 ⟨h.order, List.pairwise_singleton _ _, by simp⟩
      · simpa [executedOf] using h.answered
      · obtain ⟨x, hx, hwaits⟩ := h.clearing r hr
        exact ⟨x, List.mem_append_left _ hx, hwaits⟩
    · rw [receive_full hnull hfull]
      exact ⟨h.room, h.order, h.answered, h.carried, h.clearing⟩

/-- The response that is delivered leaves its queue together with its request (R181). -/
theorem deliver {t : Transaction} (h : QueueBooks ps) (ht : ps.transaction = some t) :
    QueueBooks (({ ps with transaction := none } : PortState).deliver t) := by
  rw [deliver_eq]
  cases hc : t.carries with
  | false => exact ⟨h.room, h.order, h.answered, nofun, h.clearing⟩
  | true =>
    obtain ⟨x, rest, hin, hdone⟩ := h.head_executed (h.carried t ht hc)
    have hanswered := h.answered
    have horder := h.order
    have hroom := h.room
    refine ⟨?_, ?_, ?_, nofun, fun r hr => ?_⟩
    · simp only [if_true, List.length_tail]
      omega
    · simpa only [if_true] using horder.tail
    · rw [hin, executedOf, List.filter_cons_of_pos hdone, List.length_cons] at hanswered
      simp only [if_true, hin, List.tail_cons, List.length_tail, ← hanswered]
      rfl
    · obtain ⟨y, hy, hwaits⟩ := h.clearing r hr
      rw [hin] at hy
      rcases List.mem_cons.1 hy with rfl | hy
      · simp [hdone] at hwaits
      · exact ⟨y, by simpa only [if_true, hin, List.tail_cons] using hy, hwaits⟩

theorem endTransaction (h : QueueBooks ps) (clocks : Nat) (f : Frame) : QueueBooks (ps.endTransaction clocks f) := by
  cases hcs : ps.transaction with
  | none =>
    rw [endTransaction_high clocks f hcs]
    exact h
  | some t =>
    cases ht : t.taken with
    | false =>
      rw [endTransaction_ignored clocks f hcs ht]
      exact h.setTransaction nofun
    | true =>
      by_cases hclocks : clocks = 96
      · subst hclocks
        rw [endTransaction_delivers f hcs ht]
        exact (h.deliver hcs).receive f
      · rw [endTransaction_miscounted f hcs ht hclocks]
        exact ⟨h.room, h.order, h.answered, nofun, h.clearing⟩

theorem dropTransaction (h : QueueBooks ps) : QueueBooks ps.dropTransaction :=
  h.setTransaction fun t ht => by
    obtain ⟨_, _, rfl⟩ := Option.map_eq_some_iff.1 ht
    rfl

theorem beginReset (ps : PortState) : QueueBooks ps.beginReset := by
  refine .of_empty rfl rfl (fun t ht => ?_) fun r hr => ?_
  · obtain ⟨_, _, rfl⟩ := Option.map_eq_some_iff.1 ht
    rfl
  · have hseq : ResetSeq.afterFall ps.resetSeq = .byClear (some r) := Option.some.inj hr
    rw [afterFall_eq] at hseq
    split at hseq <;> cases hseq

theorem powerOn (ps : PortState) : QueueBooks ps.powerOn :=
  .of_empty rfl rfl (fun t ht => by
    obtain ⟨_, _, rfl⟩ := Option.map_eq_some_iff.1 ht
    rfl) nofun

/-- One request more is executed and one response more queued (R184, R189). -/
theorem respond {r : Response} (h : QueueBooks ps) (hwaits : ∃ x ∈ ps.inflight, x.executed = false)
    {t : PortState} (hin : t.inflight = markExecuted ps.inflight) (hout : t.responses = ps.responses ++ [r])
    (hseq : t.resetSeq = none) : QueueBooks t where
  room := by rw [hin, length_markExecuted]; exact h.room
  order := by rw [hin]; exact pairwise_markExecuted h.order
  answered := by rw [hin, hout, length_executedOf_mark hwaits, h.answered, List.length_append]; rfl
  carried t ht hc := by rw [hout]; simp
  clearing r hr := by rw [hseq] at hr; cases hr

theorem answer (h : QueueBooks ps) (hseq : ps.resetSeq = none) (hwaits : ∃ x ∈ ps.inflight, x.executed = false)
    (r : ResultCode) (d : Data) : QueueBooks (ps.answer r d) :=
  h.respond hwaits rfl rfl hseq

/-- The answer of a PORT_CLEAR joins the queue when its sequence ends (R192, log 11). -/
theorem finishReset (h : QueueBooks ps) : QueueBooks ps.finishReset := by
  have hplain : QueueBooks { ps.resetReporting with resetSeq := none } :=
    ⟨h.room, h.order, h.answered, h.carried, nofun⟩
  unfold PortState.finishReset
  dsimp only
  split
  · next r hr => exact h.respond (h.clearing r hr) rfl rfl rfl
  · exact hplain

theorem beginClear {f : Frame} (r : Response)
    (hfind : (ps.inflight.find? fun x => !x.executed) = some { frame := f, executed := false }) :
    QueueBooks (ps.beginClear r) := by
  rw [beginClear_eq r hfind]
  refine ⟨Nat.le_of_lt (by decide : 1 < 4), List.pairwise_singleton _ _, rfl, fun t ht hc => ?_,
    fun _ _ => ⟨_, List.mem_singleton_self _, rfl⟩⟩
  obtain ⟨_, _, rfl⟩ := Option.map_eq_some_iff.1 ht
  cases hc

end QueueBooks

/-! The operations that leave the queues alone. -/

/-- What the books of a port's queues are about. -/
def queuesOf (ps : PortState) : List InFlight × List Response × Option Transaction × Option ResetSeq :=
  (ps.inflight, ps.responses, ps.transaction, ps.resetSeq)

theorem queuesOf_eq_iff {a b : PortState} : queuesOf a = queuesOf b ↔
    a.inflight = b.inflight ∧ a.responses = b.responses ∧ a.transaction = b.transaction ∧ a.resetSeq = b.resetSeq := by
  simp only [queuesOf, Prod.mk.injEq]

theorem queuesOf_latch (ps : PortState) (e : Event) : queuesOf (ps.latch e) = queuesOf ps := by
  unfold PortState.latch
  split <;> rfl

/-- Every port has the same queues, transaction and reset sequence. -/
def SameQueues (s t : State) : Prop := ∀ p : Port, queuesOf t.ports[p] = queuesOf s.ports[p]

namespace SameQueues

theorem refl (s : State) : SameQueues s s := fun _ => rfl

theorem trans {s t u : State} (h : SameQueues s t) (k : SameQueues t u) : SameQueues s u := fun p =>
  (k p).trans (h p)

theorem of_ports {s t : State} (h : t.ports = s.ports) : SameQueues s t := fun p => by rw [h]

theorem of_untouched {s t : State} (h : Untouched s t) : SameQueues s t := fun p => queuesOf_eq_iff.2
  ⟨h.queues.inflight p, h.queues.responses p, h.queues.transaction p, h.queues.resetSeq p⟩

theorem updPort (s : State) (p : Port) {f : PortState → PortState} (h : ∀ ps, queuesOf (f ps) = queuesOf ps) :
    SameQueues s (s.updPort p f) := by
  intro q
  by_cases hq : q = p
  · rw [hq, State.updPort_self, h]
  · rw [State.updPort_other s p q f hq]

theorem raiseOthers (p : Port) (e : Event) (s : State) : SameQueues s (raiseOthers p e s) := by
  intro q
  rw [Machine.raiseOthers, State.updPorts_at]
  split
  · rfl
  · exact queuesOf_latch _ e

/-! Admission (R45, R49, R52, R54, R56). -/

theorem consume (c : ClassId) (k : Kind) (s : State) : SameQueues s (consume c k s) := by
  by_cases hk : k = .general
  · subst hk
    by_cases hlast : (s.activeRate c).mode = .oneshot ∧ s.pacing.classes[c].allowance = 1
    · rw [Admission.consume_last hlast]
      refine SameQueues.trans ?_ (.of_untouched (.raiseAll _ _))
      exact .of_ports rfl
    · rw [Admission.consume_more hlast]
      exact .of_ports rfl
  · rw [Admission.consume_other s hk]
    exact .refl s

theorem admitDirectly (p : Port) (ref : Half) (c : ClassId) (e : ClassEntry) (s : State) :
    SameQueues s (admitDirectly p ref c e s).state := by
  refine SameQueues.trans ?_ (.of_untouched (.evalExhausted _))
  refine SameQueues.trans ?_ (.consume c e.kind _)
  exact .of_ports rfl

theorem admitCollecting (p : Port) (ref : Half) (c : ClassId) (e : ClassEntry) (victims : List RecId) (s : State) :
    SameQueues s (admitCollecting p ref c e victims s).state := by
  refine SameQueues.trans ?_ (.of_untouched (.makeCollector _ _ _ _ _))
  exact .of_ports rfl

theorem admitWaiting (p : Port) (ref : Half) (c : ClassId) (e : ClassEntry) (s : State) :
    SameQueues s (admitWaiting p ref c e s).state := by
  refine SameQueues.trans ?_ (.consume c e.kind _)
  exact .of_ports rfl

end SameQueues

/-- The states that steps 3 to 10 of an ADMIT can leave: that in which it is refused, and those of the three ways in
which it is granted (R43). -/
inductive AdmitLeaves (p : Port) (ref : Half) (c : ClassId) (e : ClassEntry) (s : State) : State → Prop
  | refused : AdmitLeaves p ref c e s s
  | direct : AdmitLeaves p ref c e s (admitDirectly p ref c e s).state
  | collecting (victims : List RecId) : AdmitLeaves p ref c e s (admitCollecting p ref c e victims s).state
  | waiting : AdmitLeaves p ref c e s (admitWaiting p ref c e s).state

theorem admitPlace_leaves (p : Port) (a : AdmitArgs) (c : ClassId) (e : ClassEntry) (s : State) :
    AdmitLeaves p a.ref c e s (admitPlace p a c e s).state := by
  unfold admitPlace admitWaitOrRefuse
  dsimp only
  split
  · exact .direct
  · split
    · exact .collecting _
    · split
      · exact .waiting
      · split <;> exact .refused

theorem admitChecked_leaves (p : Port) (a : AdmitArgs) (c : ClassId) (e : ClassEntry) (s : State) :
    AdmitLeaves p a.ref c e s (admitChecked p a c e s).state := by
  unfold admitChecked
  split
  · exact .refused
  · repeat' split
    case isFalse.isFalse.isFalse => exact admitPlace_leaves p a c e s
    all_goals exact .refused

namespace SameQueues

theorem admitChecked (p : Port) (a : AdmitArgs) (c : ClassId) (e : ClassEntry) (s : State) :
    SameQueues s (admitChecked p a c e s).state := by
  have hleaves := admitChecked_leaves p a c e s
  generalize (Machine.admitChecked p a c e s).state = t at hleaves ⊢
  cases hleaves with
  | refused => exact .refl s
  | direct => exact .admitDirectly p a.ref c e s
  | collecting victims => exact .admitCollecting p a.ref c e victims s
  | waiting => exact .admitWaiting p a.ref c e s

theorem runAdmit (p : Port) (a : AdmitArgs) (s : State) : SameQueues s (runAdmit p a s).state := by
  unfold Machine.runAdmit
  split
  · exact .refl s
  · dsimp only
    split
    · exact .refl s
    · exact SameQueues.trans (t := countAttempt _ s) (.of_ports rfl) (.admitChecked p a _ _ _)

/-! The requests that name a record, the notices and the readings (chapters 2, 4, 6 and 9). -/

end SameQueues

/-- A request that names a record is refused without effect, or meets its record (R30). -/
theorem named_refused_state {p : Port} {a : RecordArgs} {s : State} {e : Executed} (h : named p a s = .refused e) :
    e.state = s := by
  unfold named at h
  repeat' split at h
  all_goals cases h
  all_goals rfl

namespace SameQueues

theorem runRelease (p : Port) (a : RecordArgs) (s : State) : SameQueues s (runRelease p a s).state := by
  unfold Machine.runRelease
  split
  · next h => exact named_refused_state h ▸ .refl s
  · unfold releaseFound
    split
    · exact .of_untouched (.releaseRecord s _ _)
    · exact .of_untouched (.releaseRecord s _ _)
    · exact .of_untouched (.freeRecord s _)
    all_goals exact .refl s

theorem runCancel (p : Port) (a : RecordArgs) (s : State) : SameQueues s (runCancel p a s).state := by
  unfold Machine.runCancel
  split
  · next h => exact named_refused_state h ▸ .refl s
  · unfold cancelFound
    split
    · exact .of_untouched (.withdrawRecord s _ _)
    · exact .of_untouched (.withdrawRecord s _ _)
    · exact .of_untouched (.freeRecord s _)
    all_goals exact .refl s

theorem runSettle (p : Port) (a : RecordArgs) (s : State) : SameQueues s (runSettle p a s).state := by
  unfold Machine.runSettle
  split
  · next h => exact named_refused_state h ▸ .refl s
  · unfold settleFound
    dsimp only
    split
    · exact .of_untouched (.endSetup s _ _)
    · exact .of_untouched (.endSetup s _ _)
    · exact .refl s

theorem runFetchNotice (p : Port) (s : State) : SameQueues s (runFetchNotice p s).state := by
  unfold Machine.runFetchNotice
  split
  · exact .refl s
  · split
    · exact .refl s
    · split
      · exact .refl s
      · dsimp only [answered]
        split
        · exact .of_untouched (.freeRecord s _)
        · exact SameQueues.trans (.of_untouched (.setRec s _ _)) (.updPort _ _ fun _ => rfl)

theorem runQuery (id : Half) (s : State) : SameQueues s (runQuery id s).state := by
  unfold Machine.runQuery
  split
  · exact .refl s
  · split <;> exact .refl s

theorem runReadClass (b : Byte) (s : State) : SameQueues s (runReadClass b s).state := by
  unfold Machine.runReadClass
  split <;> exact .refl s

theorem runReadPolicy (a : ReadPolicyArgs) (s : State) : SameQueues s (runReadPolicy a s).state := by
  unfold Machine.runReadPolicy
  split <;> exact .refl s

/-! The capacity, the active profile and the active window, and the time of day (chapters 1, 7 and 8). -/

theorem writeTarget (t : Nat) (s : State) : SameQueues s (writeTarget t s) := by
  unfold Machine.writeTarget
  refine SameQueues.trans ?_ (.of_untouched (.evalExhausted _))
  split
  · unfold raiseCapacity
    refine SameQueues.trans ?_ (.of_untouched ((Untouched.refloor _).trans (.distribute _ _ _)))
    exact .of_ports rfl
  · unfold cutCapacity
    refine SameQueues.trans ?_ (.of_untouched (.refloor _))
    exact .of_ports rfl

theorem setActiveProfile (pr : ProfileId) (s : State) : SameQueues s (setActiveProfile pr s) := by
  rcases setActiveProfile_cases pr s with ⟨-, h⟩ | h
  · rw [h]
    exact .refl s
  · exact SameQueues.trans (t := switchProfile pr s) (.of_ports rfl) (.of_untouched h)

theorem setPressure (n : Nat) (s : State) : SameQueues s (setPressure n s) := by
  unfold Machine.setPressure
  split
  · exact .refl s
  · refine SameQueues.trans ?_ (.of_untouched (.raiseAll _ _))
    exact .of_ports rfl

theorem chooseWindow (new : Option WindowId) (s : State) : SameQueues s (chooseWindow new s) := by
  unfold PacingAndPressure.chooseWindow
  split
  · exact .refl s
  · refine SameQueues.trans ?_ (.of_untouched (.raiseAll _ _))
    exact .of_ports rfl

theorem evalWindow (s : State) : SameQueues s (evalWindow s) := by
  rw [evalWindow_eq, raiseToMinimum_eq]
  exact ((SameQueues.chooseWindow _ s).trans (.setActiveProfile _ _)).trans (.setPressure _ _)

theorem loadTime (seconds : BitVec 32) (ticks : Nat) (s : State) : SameQueues s (loadTime seconds ticks s) := by
  refine SameQueues.trans ?_ (.evalWindow _)
  refine SameQueues.trans ?_ (.of_untouched (.raiseAll _ _))
  exact .of_ports rfl

theorem setTimeOfDay (seconds : BitVec 32) (ticks : Nat) (s : State) :
    SameQueues s (setTimeOfDay seconds ticks s) := by
  unfold Machine.setTimeOfDay
  split
  · exact .loadTime seconds ticks s
  · dsimp only
    split
    · exact .of_ports rfl
    · exact .loadTime seconds ticks s

theorem takeSecond (e : SecondEnd) (s : State) : SameQueues s (takeSecond e s) := by
  refine SameQueues.trans ?_ (.evalWindow _)
  exact .of_ports rfl

theorem tickAll (s : State) : SameQueues s (tickAll s) := by
  refine SameQueues.trans (t := tickCountdown s) ?_ (.of_ports rfl)
  unfold tickCountdown
  split <;> exact .of_ports rfl

theorem paceBoundary (s : State) : SameQueues s (paceBoundary s) :=
  (SameQueues.setPressure _ s).trans (.of_ports rfl)

/-! The policy image (chapter 7). -/

theorem setBars (p : Port) (bars : ClassSet) (s : State) : SameQueues s (setBars p bars s) := by
  unfold Machine.setBars
  split
  · exact .refl s
  · refine SameQueues.trans ?_ (.raiseOthers p _ _)
    exact .of_ports rfl

theorem runBarClear (p : Port) (mask : Half) (s : State) : SameQueues s (runBarClear p mask s).state := by
  unfold Machine.runBarClear
  split
  · exact .refl s
  · exact .setBars p _ s

theorem runRearm (b : Byte) (s : State) : SameQueues s (runRearm b s).state := by
  unfold Machine.runRearm
  split
  · exact .refl s
  · split
    · exact .refl s
    · exact .of_ports rfl

theorem storeClass (c : ClassId) (e : ClassEntry) (s : State) : SameQueues s (storeClass c e s) := by
  unfold Machine.storeClass
  dsimp only
  split <;> exact .of_ports rfl

theorem storeLimits (pr : ProfileId) (l : Limits) (s : State) : SameQueues s (storeLimits pr l s) := by
  unfold Machine.storeLimits
  dsimp only
  split
  · refine SameQueues.trans ?_ (.of_untouched ((Untouched.refloor _).trans (.evalExhausted _)))
    exact .of_ports rfl
  · exact .of_ports rfl

theorem storeBase (pr : ProfileId) (s : State) : SameQueues s (storeBase pr s) := by
  unfold Machine.storeBase
  dsimp only
  split
  · refine SameQueues.trans ?_ (.setActiveProfile pr _)
    exact .of_ports rfl
  · exact .of_ports rfl

theorem storeWindow (i : WindowId) (w : Window) (s : State) : SameQueues s (storeWindow i w s) := by
  refine SameQueues.trans ?_ (.evalWindow _)
  exact .of_ports rfl

/-- A guarded write leaves the queues alone when what it stores does. -/
theorem guarded {p : Port} {q : Request} {gen : Half} {stored : State → Prop} {s : State} {e : Executed}
    (h : GuardedOutcome p q gen stored s e) (hstored : ∀ t : State, stored t → SameQueues s t) :
    SameQueues s e.state := by
  rcases h.state_cases with hsame | ⟨t, ht, haccepted⟩
  · rw [hsame]
    exact .refl s
  · rw [haccepted]
    refine SameQueues.trans ?_ (.raiseOthers p _ _)
    exact (hstored t ht).trans (.of_ports rfl)

end SameQueues

/-- The treatment of a record of a resetting port leaves what every operation over records leaves (R39). -/
theorem untouched_resetNext (p : Port) (s : State) : Untouched s (resetNext p s) := by
  unfold resetNext
  split
  · exact .refl s
  · split
    · exact .refl s
    · unfold resetRecord
      split
      · exact .releaseRecord s _ _
      · exact .releaseRecord s _ _
      · exact .withdrawRecord s _ _
      · exact .withdrawRecord s _ _
      · exact .freeRecord s _
      · exact .freeRecord s _

/-! Every command and every step (R181, R182, R184). -/

theorem queuesAgree_same {s t : State} (h : SameQueues s t) (hs : QueuesAgree s) : QueuesAgree t := by
  rw [queuesAgree_iff_books] at hs ⊢
  intro p
  obtain ⟨hin, hout, hcs, hseq⟩ := queuesOf_eq_iff.1 (h p)
  obtain ⟨hroom, horder, hanswered, hcarried, hclearing⟩ := hs p
  refine ⟨?_, ?_, ?_, ?_, ?_⟩
  · rw [hin]; exact hroom
  · rw [hin]; exact horder
  · rw [hin, hout]; exact hanswered
  · rw [hcs, hout]; exact hcarried
  · rw [hseq, hin]; exact hclearing

theorem queuesAgree_updPort {s : State} {p : Port} {f : PortState → PortState} (hs : QueuesAgree s)
    (hf : QueueBooks s.ports[p] → QueueBooks (f s.ports[p])) : QueuesAgree (s.updPort p f) := by
  rw [queuesAgree_iff_books] at hs ⊢
  intro q
  by_cases hq : q = p
  · rw [hq, State.updPort_self]
    exact hf (hs p)
  · rw [State.updPort_other s p q f hq]
    exact hs q

theorem queuesAgree_updEach {s t : State} {f : PortState → PortState}
    (ht : t.ports = Vector.ofFn fun p : Port => f s.ports[p]) (hf : ∀ p : Port, QueueBooks (f s.ports[p])) :
    QueuesAgree t :=
  queuesAgree_iff_books.2 fun p => by simpa [ht] using hf p

theorem queuesAgree_finishIfDone {s : State} (p : Port) (hs : QueuesAgree s) : QueuesAgree (finishIfDone p s) := by
  rw [finishIfDone_eq]
  split
  · exact queuesAgree_updPort hs .finishReset
  · exact hs

theorem queuesAgree_startTransaction {s : State} (p : Port) (hs : QueuesAgree s) :
    QueuesAgree (startTransaction p s) := by
  by_cases hcs : s.ports[p].transaction = none
  · by_cases hpins : s.ports[p].prstLow = true ∨ s.resetLow = true
    · rw [startTransaction_ignored hcs hpins]
      exact queuesAgree_updPort hs fun h => h.setTransaction fun t ht => by cases ht; rfl
    · simp only [not_or, Bool.not_eq_true] at hpins
      obtain ⟨hpin, hreset⟩ := hpins
      cases hhead : s.ports[p].headResponse? with
      | none =>
        rw [startTransaction_empty hcs hpin hreset hhead]
        exact queuesAgree_updPort hs fun h => h.setTransaction fun t ht => by cases ht; rfl
      | some r =>
        obtain ⟨-, rs, hout⟩ := headResponse?_eq_some.1 hhead
        rw [startTransaction_carries hcs hpin hreset hhead]
        exact queuesAgree_updPort hs fun h =>
          ⟨h.room, h.order, h.answered, fun _ _ _ => by rw [hout]; exact List.cons_ne_nil r rs, h.clearing⟩
  · rw [startTransaction_busy hcs]
    exact hs

theorem queuesAgree_endTransaction {s : State} (p : Port) (clocks : Nat) (f : Frame) (hs : QueuesAgree s) :
    QueuesAgree (endTransaction p clocks f s) := queuesAgree_updPort hs fun h => h.endTransaction clocks f

theorem queuesAgree_engineTake {p : Port} {tag : Byte} {q : Request} {s s1 : State}
    (h : engineTake p tag q s = some s1) (hs : QueuesAgree s) : QueuesAgree s1 := by
  obtain ⟨s0, f, hs0, -, -, -, rfl⟩ := engineTake_eq_some h
  rcases hs0 with rfl | rfl
  · exact hs
  · exact queuesAgree_endTransaction p _ _ (queuesAgree_startTransaction p hs)

section
variable {s : State} (hs : QueuesAgree s)
include hs

/-- A request is answered in the queues in which the engine has found it, when its execution leaves them alone. -/
theorem queuesAgree_runRequest {p : Port} {tag : Byte} {q : Request} {run : State → Executed}
    (h : ∀ s1 : State, SameQueues s1 (run s1).state) : LeadsTo QueuesAgree (runRequest p tag q run s) := by
  cases htake : engineTake p tag q s with
  | none =>
    rw [runRequest_idle htake]
    exact .next hs
  | some s1 =>
    rw [runRequest_taken htake]
    obtain ⟨-, hseq, f, -, -, hfind⟩ := engineTake_found htake
    obtain ⟨hin, -, -, hsame⟩ := queuesOf_eq_iff.1 (h s1 p)
    have hwaits : ∃ x ∈ (run s1).state.ports[p].inflight, x.executed = false := by
      rw [hin]
      exact ⟨_, List.mem_of_find?_eq_some hfind, rfl⟩
    exact .next (queuesAgree_updPort (queuesAgree_same (h s1) (queuesAgree_engineTake htake hs)) fun hbooks =>
      hbooks.answer (hsame.trans (hseq p)) hwaits _ _)

theorem queuesAgree_portClear (p : Port) (tag : Byte) : LeadsTo QueuesAgree (execPortClear p tag s) := by
  unfold execPortClear
  split
  · exact .next hs
  · next s1 htake =>
    obtain ⟨-, -, f, -, -, hfind⟩ := engineTake_found htake
    exact .next (queuesAgree_finishIfDone p (queuesAgree_updPort (queuesAgree_engineTake htake hs) fun _ =>
      .beginClear _ hfind))

theorem queuesAgree_setupTimerExpiry (id : RecId) : LeadsTo QueuesAgree (execSetupTimerExpiry id s) := by
  refine .idleIf hs ?_
  split
  · exact .next hs
  · exact .ifDue hs (queuesAgree_same (.of_untouched (.endSetup s id _)) hs)

theorem queuesAgree_graceExpiry (id : RecId) : LeadsTo QueuesAgree (execGraceExpiry id s) := by
  refine .idleIf hs ?_
  split
  · exact .next hs
  · split
    · exact .next (queuesAgree_same (.of_untouched (.reclaim s id _ _)) hs)
    · exact .next hs

theorem queuesAgree_deadlineExpiry (id : RecId) : LeadsTo QueuesAgree (execDeadlineExpiry id s) := by
  refine .idleIf hs ?_
  split
  · exact .next hs
  · exact .ifDue hs (queuesAgree_same (.of_untouched (.expireWait s id _)) hs)

theorem queuesAgree_secondBoundary : LeadsTo QueuesAgree (execSecondBoundary s) := by
  refine .idleIf hs ?_
  split
  · exact .next hs
  · exact .next (queuesAgree_same (.takeSecond _ s) hs)

end

theorem exec_queuesAgree (i : Instr) {s : State} (hs : QueuesAgree s) : LeadsTo QueuesAgree (exec i s) := by
  have hsame {t : State} (h : SameQueues s t) : QueuesAgree t := queuesAgree_same h hs
  cases i with
  | admitCall p tag a => exact queuesAgree_runRequest hs (.runAdmit p a)
  | release p tag a => exact queuesAgree_runRequest hs (.runRelease p a)
  | cancel p tag a => exact queuesAgree_runRequest hs (.runCancel p a)
  | settle p tag a => exact queuesAgree_runRequest hs (.runSettle p a)
  | query p tag id => exact queuesAgree_runRequest hs (.runQuery id)
  | fetchNotice p tag => exact queuesAgree_runRequest hs (.runFetchNotice p)
  | readEvents p tag => exact queuesAgree_runRequest hs fun s1 => .updPort s1 p fun _ => rfl
  | setEnables p tag mask => exact queuesAgree_runRequest hs fun s1 => .updPort s1 p fun _ => rfl
  | readClass p tag cls => exact queuesAgree_runRequest hs (.runReadClass cls)
  | readPolicy p tag a => exact queuesAgree_runRequest hs (.runReadPolicy a)
  | readPool | readStatus | readTime | readIdent | unknownRequestCode => exact queuesAgree_runRequest hs .refl
  | barSet p tag mask => exact queuesAgree_runRequest hs fun s1 => .setBars p _ s1
  | barClear p tag mask => exact queuesAgree_runRequest hs (.runBarClear p mask)
  | rearm p tag cls => exact queuesAgree_runRequest hs (.runRearm cls)
  | writeClass p tag a =>
    exact queuesAgree_runRequest hs fun s1 => .guarded (runWriteClass_outcome p s1 a) fun _ ⟨c, e, ht⟩ =>
      ht ▸ .storeClass c e s1
  | writeRates p tag a =>
    exact queuesAgree_runRequest hs fun s1 => .guarded (runWriteRates_outcome p s1 a) fun _ ⟨pr, c, e, ht⟩ =>
      ht ▸ storeRate_eq pr c e s1 ▸ .of_ports rfl
  | writeThresholds p tag a =>
    exact queuesAgree_runRequest hs fun s1 => .guarded (runWriteThresholds_outcome p s1 a) fun _ ⟨_, _, ht⟩ =>
      ht ▸ .of_ports rfl
  | writeLimits p tag a =>
    exact queuesAgree_runRequest hs fun s1 => .guarded (runWriteLimits_outcome p s1 a) fun _ ⟨pr, l, ht⟩ =>
      ht ▸ .storeLimits pr l s1
  | selectProfile p tag a =>
    exact queuesAgree_runRequest hs fun s1 => .guarded (runSelectProfile_outcome p s1 a) fun _ ⟨pr, ht⟩ =>
      ht ▸ .storeBase pr s1
  | writeWindow p tag a =>
    exact queuesAgree_runRequest hs fun s1 => .guarded (runWriteWindow_outcome p s1 a) fun _ ⟨i, w, ht⟩ =>
      ht ▸ .storeWindow i w s1
  | writeWindowBars p tag a =>
    exact queuesAgree_runRequest hs fun s1 => .guarded (runWriteWindowBars_outcome p s1 a) fun _ ⟨i, w, ht⟩ =>
      ht ▸ .storeWindow i w s1
  | writeCapacity p tag target => exact queuesAgree_runRequest hs (.writeTarget _)
  | setTime p tag a => exact queuesAgree_runRequest hs (.setTimeOfDay a.seconds _)
  | portClear p tag => exact queuesAgree_portClear hs p tag
  | transactionStart p => exact .next (queuesAgree_startTransaction p hs)
  | transactionEnd p clocks f => exact .next (queuesAgree_endTransaction p clocks f hs)
  | portReset p =>
    refine .idleIf hs (.idleIf ?_ (.next ?_))
    · exact queuesAgree_updPort hs fun h =>
        ⟨h.room, h.order, h.answered, h.dropTransaction.carried, h.clearing⟩
    · exact queuesAgree_finishIfDone p (queuesAgree_updPort hs fun _ => .beginReset _)
  | portResetRecord p =>
    exact .idleIf hs (.ifDue hs (queuesAgree_finishIfDone p (hsame (.of_untouched (untouched_resetNext p s)))))
  | portResetRelease p =>
    exact .next (queuesAgree_updPort hs fun h => ⟨h.room, h.order, h.answered, h.carried, h.clearing⟩)
  | resetAssert => exact .next (queuesAgree_updEach rfl fun p => (queuesAgree_iff_books.1 hs p).dropTransaction)
  | powerOnReset => exact .next (queuesAgree_updEach rfl fun p => .powerOn s.ports[p])
  | tick => exact .idleIf hs (.next (hsame (.tickAll s)))
  | setupTimerExpiry id => exact queuesAgree_setupTimerExpiry hs id
  | graceExpiry id => exact queuesAgree_graceExpiry hs id
  | deadlineExpiry id => exact queuesAgree_deadlineExpiry hs id
  | intervalBoundary => exact .idleIf hs (.ifDue hs (hsame (.paceBoundary s)))
  | waitListBoundaryWork => exact .idleIf hs (.ifDue hs (hsame (.of_untouched (.boundaryWork s))))
  | secondBoundary => exact queuesAgree_secondBoundary hs

/-- Settles O55: the books of every port hold after each command, and the queue of commands is no part of them. -/
theorem everyStepKeepsTheQueues : Obligations.EveryStepKeepsTheQueues := by
  intro s t hs h
  unfold step at h
  split at h
  · cases h
    exact hs
  · next i rest _ => exact exec_queuesAgree i (s := { s with pending := rest }) hs t h

end Sys2Proof.Machine.SectorPorts
end
